-- ==== Sys2Proof/Word.lean ====
section
/-! DEFINITION. The word types of the block: every value is an unsigned word of 1, 4, 7 or 8 bits
(42_byte_transfer.md R113). -/

namespace Sys2Proof

/-- A byte: `SHR`, `REG`, `VAL`, `CMD`, a buffer cell, an operation code (00_scope.md R6, R8). -/
abbrev Byte := BitVec 8

/-- A device address, "a 7-bit identifier" (00_scope.md R6, 10_state.md R20). -/
abbrev DevAddr := BitVec 7

/-- A count of data bytes, `LEN_BITS` = 8 bits (00_scope.md R6): `LEN` and `IDX`. -/
abbrev Count := BitVec 8

end Sys2Proof
end

