-- ==== Sys2Proof/Config.lean ====
section
/-! DEFINITION. What an implementation fixes (the parameters of 00_scope.md R6) and the free values:
opaque constants with no body, of which nothing can be proved. -/

namespace Sys2Proof

/-- `READ_ADDR_NACK_POLICY` (00_scope.md R6, 43_transfer_commands.md R123). -/
inductive AddrNackPolicy where
  /-- An unacknowledged READ address ends the command with `OK` = 0. -/
  | abort
  /-- The acknowledge of a READ address is discarded (the as-built behaviour). -/
  | legacy
  deriving DecidableEq, Repr

/-- How much one step of the model does once a command is issued. 10_state.md R24 gives both forms
and calls them equivalent. DESIGN CHOICE, safe (log 2). -/
inductive Grain where
  /-- One step runs the whole operation, "one function that returns the whole trace" (R24). -/
  | operation
  /-- One step of a command runs one pin primitive (R24, R80). -/
  | primitive
  deriving DecidableEq, Repr

/-- The parameters the model takes as arguments (00_scope.md R6). No step changes them (log 1). -/
structure Params where
  /-- `READ_ADDR_NACK_POLICY`. -/
  policy : AddrNackPolicy
  /-- `PULLUP_PRESENT`: each line has its external pull-up. -/
  pullup : Bool
  /-- The model's own step size (log 2). -/
  grain : Grain
  deriving DecidableEq, Repr

/-- The defaults of 00_scope.md R6: policy `abort`, pull-ups present. -/
def Params.default : Params := { policy := .abort, pullup := true, grain := .operation }

/-- What the peers together do with a line at one instant (20_memory.md R46). -/
inductive PeerDrive where
  /-- Some peer drives the line low. -/
  | drivesLow
  /-- No peer drives the line. -/
  | released
  deriving DecidableEq, Repr, Inhabited

/-- `LEN_BITS` (00_scope.md R6): the spec's own choice, 8 (log 3). -/
def Config.lenBits : Nat := 8

/-- `BUF_MAX` = `2^LEN_BITS - 1`, the number of cells of `TXBUF` and of `RXBUF` (00_scope.md R6). -/
def Config.bufMax : Nat := 2 ^ Config.lenBits - 1

/-- FREE VALUE: what the peers do with SDA at the `n`-th sample, where the environment's list says
nothing (20_memory.md R47: the oracle is unconstrained; log 6). -/
opaque Config.peerSda : Nat → PeerDrive

/-- FREE VALUE: the level the `n`-th sample finds on a line nobody drives and no pull-up holds
(20_memory.md R46, 93_implementation_defined.md U3: a fresh draw per sample; log 7). -/
opaque Config.floatSda : Nat → Bool

/-- `T_WAIT`, the least duration of one WAIT, in a unit of time the spec leaves open
(00_scope.md R6; log 17). No step depends on it. -/
opaque Config.tWait : Nat

end Sys2Proof
end

