-- ==== Sys2Proof/Syntax.lean ====
section
/-! DEFINITION. The 15 operations of the block (30_encoding.md R66, R68), its five commands, and the
accesses a host can make (30_encoding.md R69, 60_exceptions.md R155). -/

namespace Sys2Proof

/-- One constructor per row of the code table (30_encoding.md R68). Only RBYTE has an operand inside
its code (R67); every other operand is in a register (R69). -/
inductive Instr where
  /-- SDA_LOW, 40_pin_driver.md R81. -/
  | sdaLow
  /-- SDA_REL, 40_pin_driver.md R82. -/
  | sdaRel
  /-- SCL_LOW, 40_pin_driver.md R83. -/
  | sclLow
  /-- SCL_REL, 40_pin_driver.md R84. -/
  | sclRel
  /-- SDA_SAMPLE, 40_pin_driver.md R86. -/
  | sdaSample
  /-- WAIT, 40_pin_driver.md R85. -/
  | wait
  /-- START, 41_bus_conditions.md R100; run while `TXN_OPEN` = 1 it is a repeated start (R102). -/
  | start
  /-- STOP, 41_bus_conditions.md R101. -/
  | stop
  /-- WBYTE, 42_byte_transfer.md R110: sends the byte in `SHR`. -/
  | wbyte
  /-- RBYTE, 42_byte_transfer.md R111: `a` is the acknowledge to generate, true = ack. -/
  | rbyte (a : Bool)
  /-- BEGIN, 43_transfer_commands.md R120. -/
  | begin
  /-- WRITE, 43_transfer_commands.md R121. -/
  | write
  /-- READ, 43_transfer_commands.md R123. -/
  | read
  /-- WRITE_REG, 43_transfer_commands.md R122. -/
  | writeReg
  /-- READ_REG, 43_transfer_commands.md R124. -/
  | readReg
  deriving DecidableEq, Repr

/-- The three levels of operation (30_encoding.md R66): pin primitive, bus phase, command. -/
inductive OpLevel where
  | p
  | s
  | c
  deriving DecidableEq, Repr

/-- The level of an operation (30_encoding.md R66). -/
def Instr.level : Instr → OpLevel
  | .sdaLow | .sdaRel | .sclLow | .sclRel | .sdaSample | .wait => .p
  | .start | .stop | .wbyte | .rbyte _ => .s
  | .begin | .write | .read | .writeReg | .readReg => .c

/-- The five host-issuable commands (30_encoding.md R66, level C). -/
inductive Command where
  | begin
  | write
  | read
  | writeReg
  | readReg
  deriving DecidableEq, Repr

/-- The operation a command is. -/
def Command.instr : Command → Instr
  | .begin => .begin
  | .write => .write
  | .read => .read
  | .writeReg => .writeReg
  | .readReg => .readReg

/-- The command an operation is, for the level C operations. -/
def Instr.command? : Instr → Option Command
  | .begin => some .begin
  | .write => some .write
  | .read => some .read
  | .writeReg => some .writeReg
  | .readReg => some .readReg
  | .sdaLow | .sdaRel | .sclLow | .sclRel | .sdaSample | .wait => none
  | .start | .stop | .wbyte | .rbyte _ => none

/-- What a host can read at the end of a command (30_encoding.md R69, 10_state.md R23). -/
inductive HostReg where
  | status
  | cmd
  | val
  /-- Cell `i` of `RXBUF`. -/
  | rx (i : Nat)
  deriving DecidableEq, Repr

/-- One line of the bus (20_memory.md R40, pin space). -/
inductive Line where
  | sda
  | scl
  deriving DecidableEq, Repr

/-- One access of the host (30_encoding.md R69, 10_state.md R20 to R23). -/
inductive HostAccess where
  | writeAddr (v : DevAddr)
  | writeLen (v : Count)
  | writeReg (v : Byte)
  | writeVal (v : Byte)
  /-- Cell `i` of `TXBUF`. -/
  | writeTx (i : Nat) (v : Byte)
  /-- A write of `CMD` issues the command whose code is `code` (R69). -/
  | writeCmd (code : Byte)
  | writeStatus (v : Byte)
  | read (r : HostReg)
  /-- Host code outside the block changing a pin (70_reset_and_hazards.md R171). -/
  | drivePin (l : Line) (low : Bool)
  deriving DecidableEq, Repr

/-- An access as it arrives. The host's own code is blocked while a command runs (20_memory.md R44);
a `reentrant` one comes from an interrupt handler and does not wait (70_reset_and_hazards.md R170). -/
structure HostEvent where
  reentrant : Bool
  access : HostAccess
  deriving DecidableEq, Repr

end Sys2Proof
end

