-- ==== Sys2Proof/Machine/State.lean ====
section
/-! DEFINITION. The state of the block as plain data (10_state.md R10), the reasons a step can stop,
and the state after reset (10_state.md R28, 70_reset_and_hazards.md R160). -/

namespace Sys2Proof.Machine

/-- A pin driver (10_state.md R11, R12). There is no driven-high value: the open-drain invariant R13
holds by the type. -/
inductive Drv where
  /-- The pin is an output at logic low; 0 where one bit is needed. -/
  | drivenLow
  /-- The pin is a high-impedance input; 1 where one bit is needed. -/
  | released
  deriving DecidableEq, Repr

/-- The events of the observation (20_memory.md R49). -/
inductive Event where
  | sdaLow
  | sdaRel
  | sclLow
  | sclRel
  | wait
  /-- A sample of SDA, with the level answered: true = high = 1 (30_encoding.md R63). -/
  | sample (v : Bool)
  deriving DecidableEq, Repr

/-- A command and the phase within it: the first two parts of a sequencer position
(10_state.md R24), one constructor for each phase of each command of 43_transfer_commands.md. The
argument of a STOP is the `OK` the command ends with: false at its failure exit. -/
inductive Place where
  | beginReleases
  | writeStart
  | writeAddr
  | writeData
  | writeStop (ok : Bool)
  | readStart
  | readAddr
  | readData
  | readStop (ok : Bool)
  | writeRegStart
  | writeRegAddr
  | writeRegReg
  | writeRegVal
  | writeRegStop (ok : Bool)
  | readRegStart
  | readRegAddrWrite
  | readRegReg
  | readRegRestart
  | readRegAddrRead
  | readRegData
  | readRegStop (ok : Bool)
  deriving DecidableEq, Repr

/-- `SEQ`, the sequencer position (10_state.md R24). -/
inductive Seq where
  /-- No command runs. -/
  | idle
  /-- At the head of the operation whose code this is: issued, nothing of it run yet. -/
  | op (code : Byte)
  /-- Inside a command: its phase, and the index of the phase's next primitive. -/
  | path (place : Place) (prim : Nat)
  deriving DecidableEq, Repr

/-- A buffer's contents (10_state.md R21, R22): pairs of an index and a byte, indexes strictly
rising, no byte equal to what an unlisted cell reads as (`Mem.wf`). -/
abbrev Mem := List Host.Cell

/-- Why the machine stops with a fault. -/
inductive Fault where
  /-- Raised by a host access to cell `i` of `TXBUF` or `RXBUF` with `i` at `BUF_MAX` or above, a cell
  the spec says does not exist (00_scope.md R8). Safe: the machine stops (log 18). -/
  | noSuchCell (i : Nat)
  deriving DecidableEq, Repr

/-- Why the model gives something no meaning. -/
inductive Refusal where
  /-- Raised by `exec` for an operation that has no meaning yet. Safe. No arm raises it. -/
  | notModelled (mnemonic : String)
  /-- Raised by a write of a reserved code to `CMD`, and by a sequencer position that names one
  (30_encoding.md R71: refused). Safe: the spec gives it no meaning (log 12). -/
  | reservedCode (code : Byte)
  /-- Raised by a write of a level P or S code to `CMD` (30_encoding.md R71: refused). Safe (log 12). -/
  | notHostIssuable (code : Byte)
  /-- Raised by a write of `CMD`, an operand register or `TXBUF` while `BUSY` = 1
  (70_reset_and_hazards.md R170: refused). Safe (log 11). -/
  | reentrantAccess
  /-- Raised by host code driving SDA or SCL itself (70_reset_and_hazards.md R171: no rule of the spec
  holds). Safe: nothing is claimed of it (log 14). -/
  | pinsNotExclusive
  deriving DecidableEq, Repr

/-- The state: every register of 10_state.md R10, then the fields that are the model's own. -/
structure State where
  /-- `SDA_DRV`, R11. -/
  sdaDrv : Drv
  /-- `SCL_DRV`, R12. -/
  sclDrv : Drv
  /-- `SHR`, R14. -/
  shr : Byte
  /-- `BITCNT`, R15: 4 bits, values 0 to 8. -/
  bitcnt : BitVec 4
  /-- `ACKF`, R16. -/
  ackf : Bool
  /-- `OK`, R17. -/
  ok : Bool
  /-- `TXN_OPEN`, R18. -/
  txnOpen : Bool
  /-- `BUSY`, R19. -/
  busy : Bool
  /-- `ADDR`, R20. -/
  addr : DevAddr
  /-- `LEN`, R20. -/
  len : Count
  /-- `REG`, R20. -/
  reg : Byte
  /-- `VAL`, R20. -/
  val : Byte
  /-- `TXBUF`, R21. -/
  txbuf : Mem
  /-- `RXBUF`, R22. -/
  rxbuf : Mem
  /-- `CMD`, R23: the last value written. -/
  cmd : Byte
  /-- `SEQ`, R24. -/
  seq : Seq
  /-- `IDX`, R25. -/
  idx : Count
  /-- The model's own: the local `v` of the pseudocode, the level the last SDA_SAMPLE answered, kept
  for the phase that ran it (40_pin_driver.md R86; log 9). -/
  smp : Bool
  /-- The model's own: the byte the host's last read access delivered (30_encoding.md R69; log 21). -/
  rdata : Byte
  /-- The model's own: the host's accesses to come, oldest first (log 10). -/
  host : List HostEvent
  /-- The model's own: what the peers do with SDA at the samples to come, in order
  (20_memory.md R47; log 6). -/
  peer : List PeerDrive
  /-- The model's own: how many samples were taken, the index of the free values (log 6). -/
  samples : Nat
  /-- The model's own: the parameters (00_scope.md R6; log 1). -/
  params : Params
  /-- The model's own: the observation, oldest event first (20_memory.md R49; log 8). -/
  trace : List Event
  deriving DecidableEq, Repr

/-- The block right after reset: `TXN_OPEN` = 0, `BUSY` = 0, `SEQ` = Idle and no event
(10_state.md R28, 70_reset_and_hazards.md R160). Every other register is unspecified there and holds
the zero of its type: DESIGN CHOICE, unsafe (log 4, log 5). -/
def State.reset : State where
  sdaDrv := .drivenLow
  sclDrv := .drivenLow
  shr := 0
  bitcnt := 0
  ackf := false
  ok := false
  txnOpen := false
  busy := false
  addr := 0
  len := 0
  reg := 0
  val := 0
  txbuf := []
  rxbuf := []
  cmd := 0
  seq := .idle
  idx := 0
  smp := false
  rdata := 0
  host := []
  peer := []
  samples := 0
  params := Params.default
  trace := []

end Sys2Proof.Machine
end

