-- ==== Sys2Proof/WellFormed.lean ====
section
/-! DEFINITION. The checks on what is written to the block. Every term of `Instr` is well formed: its
one operand is a single bit by its type (30_encoding.md R67), and `ADDR` is 7 bits by its type
(10_state.md R20). What can be ill formed is what a host writes. -/

namespace Sys2Proof

/-- Only level C can be issued by the host (30_encoding.md R66, R71). -/
def Instr.hostIssuable (i : Instr) : Bool := i.command?.isSome

/-- A buffer cell exists: `0 <= i < BUF_MAX` (00_scope.md R8, 10_state.md R21, R22). -/
def cellExists (i : Nat) : Bool := decide (i < Config.bufMax)

/-- A register the host may name exists. -/
def HostReg.wf : HostReg → Bool
  | .rx i => cellExists i
  | .status | .cmd | .val => true

/-- The access is one the spec gives the host: a cell that exists, and no pin (R171). Whether a
written code is a command's is the decoder's to say. -/
def HostAccess.wf : HostAccess → Bool
  | .writeTx i _ => cellExists i
  | .read r => r.wf
  | .drivePin _ _ => false
  | .writeAddr _ | .writeLen _ | .writeReg _ | .writeVal _ | .writeCmd _ | .writeStatus _ => true

/-- The access changes state the host must leave alone while `BUSY` = 1: `CMD`, an operand register
or `TXBUF` (70_reset_and_hazards.md R170). -/
def HostAccess.needsIdle : HostAccess → Bool
  | .writeAddr _ | .writeLen _ | .writeReg _ | .writeVal _ | .writeTx _ _ | .writeCmd _ => true
  | .writeStatus _ | .read _ | .drivePin _ _ => false

end Sys2Proof
end

