-- ==== Sys2Proof/Machine/Ops.lean ====
section
/-! DEFINITION. The named operations over buffers, registers, pins and the environment; the two bus
conditions; ending a command; and the one failure, Nack (60_exceptions.md R141). -/

namespace Sys2Proof.Machine

/-! ## Buffers (10_state.md R21, R22) -/

/-- What a cell nothing has written reads as. The spec leaves it unspecified (10_state.md R28):
DESIGN CHOICE, unsafe (log 5). -/
def unlistedByte : Byte := 0

/-- The byte in cell `i`. -/
def Mem.read : Mem → Nat → Byte
  | [], _ => unlistedByte
  | (a, b) :: rest, i => if a = i then b else Mem.read rest i

/-- Writes `v` to cell `i` and keeps the canonical form: writing what an unlisted cell reads as
removes the entry. -/
def Mem.write : Mem → Nat → Byte → Mem
  | [], i, v => if v = unlistedByte then [] else [(i, v)]
  | (a, b) :: rest, i, v =>
    if i < a then
      if v = unlistedByte then (a, b) :: rest else (i, v) :: (a, b) :: rest
    else if i = a then
      if v = unlistedByte then rest else (i, v) :: rest
    else (a, b) :: Mem.write rest i v

/-- The canonical form from index `lo` up: indexes strictly rising, each a cell that exists, no
entry equal to what an unlisted cell reads as. -/
def Mem.wfFrom (lo : Nat) : Mem → Bool
  | [] => true
  | (a, b) :: rest =>
    decide (lo ≤ a) && cellExists a && decide (b ≠ unlistedByte) && Mem.wfFrom (a + 1) rest

/-- The canonical form of a buffer. -/
def Mem.wf (m : Mem) : Bool := Mem.wfFrom 0 m

/-! ## Register writes: one home for each (00_scope.md R8, `x[NAME] <- v`) -/

/-- Appends an event to the observation (00_scope.md R8, `emit`; 20_memory.md R49). -/
def State.emit (s : State) (e : Event) : State := { s with trace := s.trace ++ [e] }

/-- `x[SDA_DRV] <- d`. -/
def State.setSda (s : State) (d : Drv) : State := { s with sdaDrv := d }

/-- `x[SCL_DRV] <- d`. -/
def State.setScl (s : State) (d : Drv) : State := { s with sclDrv := d }

/-- `x[SHR] <- b`. -/
def State.setShr (s : State) (b : Byte) : State := { s with shr := b }

/-- `x[BITCNT] <- n`. -/
def State.setBitcnt (s : State) (n : BitVec 4) : State := { s with bitcnt := n }

/-- `x[ACKF] <- f`. -/
def State.setAckf (s : State) (f : Bool) : State := { s with ackf := f }

/-- `x[OK] <- f`. -/
def State.setOk (s : State) (f : Bool) : State := { s with ok := f }

/-- `x[TXN_OPEN] <- f`. -/
def State.setTxnOpen (s : State) (f : Bool) : State := { s with txnOpen := f }

/-- `x[VAL] <- b`. -/
def State.setVal (s : State) (b : Byte) : State := { s with val := b }

/-- `x[IDX] <- n`. -/
def State.setIdx (s : State) (n : Count) : State := { s with idx := n }

/-- `MemWrite(i, 1, v)`: `RXBUF[i] <- v` (00_scope.md R8). -/
def State.setRx (s : State) (i : Nat) (v : Byte) : State := { s with rxbuf := Mem.write s.rxbuf i v }

/-- `SEQ <- q`. -/
def State.setSeq (s : State) (q : Seq) : State := { s with seq := q }

/-- `BUSY <- f`. -/
def State.setBusy (s : State) (f : Bool) : State := { s with busy := f }

/-- `MemRead(i, 1)`: `TXBUF[i]` (00_scope.md R8). -/
def State.txByte (s : State) (i : Nat) : Byte := Mem.read s.txbuf i

/-! ## Line levels and the environment (20_memory.md R46, R47) -/

/-- The level of a line, true = high: the wired-AND of the block's driver, the peers and the pull-up
(20_memory.md R46). `float` is the level where nothing drives and no pull-up holds the line. -/
def lineLevel (m : Drv) (p : PeerDrive) (pullup float : Bool) : Bool :=
  match m, p with
  | .drivenLow, _ => false
  | .released, .drivesLow => false
  | .released, .released => if pullup then true else float

/-- What the peers do with SDA at the `k`-th sample from here, counting from 0: what the list says,
and a free value where it ends (20_memory.md R47; log 6). -/
def State.peerAt (s : State) (k : Nat) : PeerDrive :=
  (s.peer[k]?).getD (Config.peerSda (s.samples + k))

/-- The level of SDA at the next sample (40_pin_driver.md R86). -/
def State.sdaLevel (s : State) : Bool :=
  lineLevel s.sdaDrv (s.peerAt 0) s.params.pullup (Config.floatSda s.samples)

/-- The answer of the environment to the `k`-th sample from here, counting from 0, if SDA is released
at it, as it is at every sample the block makes (20_memory.md R47). -/
def State.answer (s : State) (k : Nat) : Bool :=
  lineLevel .released (s.peerAt k) s.params.pullup (Config.floatSda (s.samples + k))

/-- The environment has answered one sample with level `v`. -/
def State.takeSample (s : State) (v : Bool) : State :=
  { s with smp := v, peer := s.peer.tail, samples := s.samples + 1 }

/-! ## The six pin primitives (40_pin_driver.md R81 to R86) -/

/-- 40_pin_driver.md R81. -/
def State.sdaLow (s : State) : State := (s.setSda .drivenLow).emit .sdaLow

/-- 40_pin_driver.md R82. -/
def State.sdaRel (s : State) : State := (s.setSda .released).emit .sdaRel

/-- 40_pin_driver.md R83. -/
def State.sclLow (s : State) : State := (s.setScl .drivenLow).emit .sclLow

/-- 40_pin_driver.md R84. -/
def State.sclRel (s : State) : State := (s.setScl .released).emit .sclRel

/-- 40_pin_driver.md R85: an event and nothing else. -/
def State.wait (s : State) : State := s.emit .wait

/-- 40_pin_driver.md R86: `v <- env_sda()`, and the event with the level answered. -/
def State.sdaSample (s : State) : State := (s.takeSample s.sdaLevel).emit (.sample s.sdaLevel)

/-- SDA for a data or acknowledge bit: low for 0, released for 1 (30_encoding.md R63). -/
def State.sdaBit (s : State) (bit : Bool) : State := if bit then s.sdaRel else s.sdaLow

/-! ## The bus conditions (41_bus_conditions.md R100, R101) -/

/-- The seven primitives of START, and `TXN_OPEN` (41_bus_conditions.md R100). -/
def State.startCondition (s : State) : State :=
  s.sdaRel.sclRel.wait.sdaLow.wait.sclLow.wait.setTxnOpen true

/-- The six primitives of STOP, and `TXN_OPEN` (41_bus_conditions.md R101). -/
def State.stopCondition (s : State) : State :=
  s.sdaLow.wait.sclRel.wait.sdaRel.wait.setTxnOpen false

/-! ## The end of a command, and its failure -/

/-- The command has ended: `BUSY <- 0`, `SEQ <- Idle` (20_memory.md R55). -/
def State.endCommand (s : State) : State := (s.setBusy false).setSeq .idle

/-- The end of a transfer command that succeeded: STOP, `OK <- 1` (43_transfer_commands.md R121). -/
def State.succeed (s : State) : State := (s.stopCondition.setOk true).endCommand

/-- TAKING THE EXCEPTION, `raise Nack(which)` (60_exceptions.md R141): STOP exactly once, `OK <- 0`,
the command ends. The hardware does not record `which` byte it was (R140), nothing is saved, and
there is no return from it: the block is idle and control is the host's (R144). -/
def State.raiseNack (s : State) : State := (s.stopCondition.setOk false).endCommand

end Sys2Proof.Machine
end

