-- ==== Sys2Proof/Machine/Flags.lean ====
section
/-! DEFINITION. The flags and the arithmetic of the shift register and counters
(42_byte_transfer.md R113), and the status view (10_state.md R23). -/

namespace Sys2Proof.Machine

/-- The acknowledge flag of a sampled level: 1 when SDA was low (10_state.md R16, 30_encoding.md R64). -/
def ackOfLevel (v : Bool) : Bool := !v

/-- `x[ACKF] <- (1 if v = 0 else 0)`, `v` being the last sample (42_byte_transfer.md R110). -/
def State.latchAck (s : State) : State := s.setAckf (ackOfLevel s.smp)

/-- The transmit shift: bit 7 drops out, a 0 enters at bit 0 (42_byte_transfer.md R113 b). -/
def shiftOut (b : Byte) : Byte := b <<< 1

/-- The receive shift: the sampled level enters at bit 0 (42_byte_transfer.md R113 c). -/
def shiftIn (b : Byte) (v : Bool) : Byte := (b <<< 1) ||| (BitVec.ofBool v).setWidth 8

/-- `x[SHR]` after one transmitted bit. -/
def State.shiftSent (s : State) : State := s.setShr (shiftOut s.shr)

/-- `x[SHR]` after one sampled bit, the last sample entering. -/
def State.shiftSampled (s : State) : State := s.setShr (shiftIn s.shr s.smp)

/-- `x[BITCNT] <- x[BITCNT] + 1` (42_byte_transfer.md R113 d). -/
def State.countBit (s : State) : State := s.setBitcnt (s.bitcnt + 1)

/-- `x[IDX] <- x[IDX] + 1` (42_byte_transfer.md R113 d). -/
def State.countByte (s : State) : State := s.setIdx (s.idx + 1)

/-- A driver's one-bit coding: DrivenLow is 0, Released is 1 (10_state.md R11). -/
def Drv.bit : Drv → Bool
  | .drivenLow => false
  | .released => true

/-- `STATUS`, a view with no storage of its own (10_state.md R23): bit 0 `BUSY`, 1 `OK`, 2 `ACKF`,
3 `TXN_OPEN`, 4 `SDA_DRV`, 5 `SCL_DRV`, bits 7:6 read as 0. -/
def State.status (s : State) : Byte :=
  (0 : BitVec 2) ++ BitVec.ofBool s.sclDrv.bit ++ BitVec.ofBool s.sdaDrv.bit
    ++ BitVec.ofBool s.txnOpen ++ BitVec.ofBool s.ackf ++ BitVec.ofBool s.ok ++ BitVec.ofBool s.busy

end Sys2Proof.Machine
end

