-- ==== Sys2Proof/Machine/Operands.lean ====
section
/-! DEFINITION. How operands are used (30_encoding.md R61, R62, R70; 43_transfer_commands.md R127). -/

namespace Sys2Proof.Machine

/-- The direction bit of an address byte: false = 0 = write, true = 1 = read (30_encoding.md R62). -/
abbrev Dir := Bool

/-- The address byte `AB = ADDR :: dir`, in R61's other form `(zext_8(ADDR) << 1) | dir`. -/
def addressByte (a : DevAddr) (dir : Dir) : Byte :=
  (a.setWidth 8 <<< 1) ||| (BitVec.ofBool dir).setWidth 8

/-- The address byte of a write phase of the running command. -/
def State.addrWriteByte (s : State) : Byte := addressByte s.addr false

/-- The address byte of a read phase of the running command. -/
def State.addrReadByte (s : State) : Byte := addressByte s.addr true

/-- READ's acknowledge operand: `a = 1 if IDX < LEN - 1 else 0` (30_encoding.md R70,
43_transfer_commands.md R123). It is used only where `LEN >= 1`, so `LEN - 1` does not wrap
(42_byte_transfer.md R113 d). -/
def ackWanted (idx len : Count) : Bool := decide (idx < len - 1)

/-- The loop test `IDX < LEN` (43_transfer_commands.md R125). -/
def State.moreBytes (s : State) : Bool := decide (s.idx < s.len)

/-- An address byte of READ that was not acknowledged ends the command under policy `abort` only
(43_transfer_commands.md R123). -/
def State.readAborts (s : State) : Bool := !s.ackf && decide (s.params.policy = .abort)

/-- The byte that eight samples in a row make, the `k`-th sample from here first and bit 7 of it
(42_byte_transfer.md R113 c). -/
def State.answerByte (s : State) (k : Nat) : Byte :=
  shiftIn (shiftIn (shiftIn (shiftIn (shiftIn (shiftIn (shiftIn (shiftIn 0
    (s.answer k)) (s.answer (k + 1))) (s.answer (k + 2))) (s.answer (k + 3)))
    (s.answer (k + 4))) (s.answer (k + 5))) (s.answer (k + 6))) (s.answer (k + 7))

end Sys2Proof.Machine
end

