-- ==== Sys2Proof/Machine/Phases.lean ====
section
/-! DEFINITION. Level S: the byte transfers (42_byte_transfer.md R110, R111) and the meanings of the
four bus phases. -/

namespace Sys2Proof.Machine

/-- One data cell of WBYTE: the bit at position 7 on SDA, one clock pulse, the shift
(42_byte_transfer.md R110, R112). -/
def State.sendCell (s : State) : State :=
  (s.sdaBit (s.shr.getLsbD 7)).wait.sclRel.wait.sclLow.wait.shiftSent.countBit

/-- `n` data cells of WBYTE. -/
def State.sendCells : Nat → State → State
  | 0, s => s
  | n + 1, s => State.sendCells n s.sendCell

/-- The acknowledge cell of WBYTE: the peer may drive SDA, the block samples it
(42_byte_transfer.md R110). -/
def State.ackCellIn (s : State) : State :=
  s.sdaRel.wait.sclRel.wait.sdaSample.sclLow.wait.latchAck

/-- The entry of WBYTE: `SHR` is loaded, `BITCNT` cleared. -/
def State.loadByte (s : State) (b : Byte) : State := (s.setShr b).setBitcnt 0

/-- WBYTE of the byte `b` (42_byte_transfer.md R110): the bit loop runs from `BITCNT` = 0 while
`BITCNT` < 8, which is eight data cells, then the acknowledge cell. The result is in `ACKF`. -/
def State.sendByte (s : State) (b : Byte) : State :=
  (State.sendCells 8 (s.loadByte b)).ackCellIn

/-- One data cell of RBYTE: SDA handed to the peer, one clock pulse, the sample shifted in
(42_byte_transfer.md R111, R112). -/
def State.recvCell (s : State) : State :=
  s.sdaRel.wait.sclRel.wait.sdaSample.shiftSampled.sclLow.wait.countBit

/-- `n` data cells of RBYTE. -/
def State.recvCells : Nat → State → State
  | 0, s => s
  | n + 1, s => State.recvCells n s.recvCell

/-- The acknowledge cell of RBYTE: SDA low to acknowledge, released not to, and the closing release
with no WAIT after it (42_byte_transfer.md R111). -/
def State.ackCellOut (s : State) (a : Bool) : State :=
  (s.sdaBit (!a)).wait.sclRel.wait.sclLow.wait.sdaRel

/-- RBYTE with the acknowledge `a` (42_byte_transfer.md R111). The result is in `SHR`. -/
def State.recvByte (s : State) (a : Bool) : State :=
  (State.recvCells 8 (s.loadByte 0)).ackCellOut a

/-- START produces a start condition (41_bus_conditions.md R100); run while `TXN_OPEN` = 1 it is the
repeated start (R102). -/
def execStart (s : State) : Host.Outcome State Fault Refusal := .next s.startCondition

/-- STOP produces a stop condition (41_bus_conditions.md R101). -/
def execStop (s : State) : Host.Outcome State Fault Refusal := .next s.stopCondition

/-- WBYTE sends the byte in `SHR` (30_encoding.md R68; 42_byte_transfer.md R110). -/
def execWbyte (s : State) : Host.Outcome State Fault Refusal := .next (s.sendByte s.shr)

/-- RBYTE receives a byte into `SHR` and acknowledges it by `a` (42_byte_transfer.md R111). -/
def execRbyte (a : Bool) (s : State) : Host.Outcome State Fault Refusal := .next (s.recvByte a)

end Sys2Proof.Machine
end

