-- ==== Sys2Proof/Machine/Commands.lean ====
section
/-! DEFINITION. Level C: the meanings of the five commands (43_transfer_commands.md R120 to R124),
each as one function that runs the command to its end (10_state.md R24). -/

namespace Sys2Proof.Machine

/-- Sends a byte and goes on with `k` if it was acknowledged, and raises Nack if it was not
(43_transfer_commands.md R125, 60_exceptions.md R141). -/
def State.sendThen (s : State) (b : Byte) (k : State → State) : State :=
  if (s.sendByte b).ackf then k (s.sendByte b) else (s.sendByte b).raiseNack

/-- WRITE's byte loop with `n` = `LEN - IDX` bytes still to send: `while IDX < LEN`
(43_transfer_commands.md R121). -/
def State.writeLoop : Nat → State → State
  | 0, s => s.succeed
  | n + 1, s => s.sendThen (s.txByte s.idx.toNat) (fun t => State.writeLoop n t.countByte)

/-- READ's byte loop with `n` = `LEN - IDX` bytes still to receive: `while IDX < LEN`
(43_transfer_commands.md R123). -/
def State.readLoop : Nat → State → State
  | 0, s => s.succeed
  | n + 1, s =>
    let t := s.recvByte (ackWanted s.idx s.len)
    State.readLoop n (t.setRx t.idx.toNat t.shr).countByte

/-- The whole of WRITE (43_transfer_commands.md R121). -/
def State.runWrite (s : State) : State :=
  s.startCondition.sendThen s.addrWriteByte fun t => State.writeLoop t.len.toNat (t.setIdx 0)

/-- The whole of READ (43_transfer_commands.md R123). -/
def State.runRead (s : State) : State :=
  let t := s.startCondition.sendByte s.addrReadByte
  if t.readAborts then t.raiseNack else State.readLoop t.len.toNat (t.setIdx 0)

/-- The whole of WRITE_REG (43_transfer_commands.md R122). -/
def State.runWriteReg (s : State) : State :=
  s.startCondition.sendThen s.addrWriteByte fun t =>
    t.sendThen t.reg fun u => u.sendThen u.val State.succeed

/-- The end of READ_REG: one byte, negative acknowledge, into `VAL` (43_transfer_commands.md R124). -/
def State.receiveVal (s : State) : State :=
  let t := s.recvByte false
  (t.setVal t.shr).succeed

/-- The whole of READ_REG, with its repeated start (43_transfer_commands.md R124). -/
def State.runReadReg (s : State) : State :=
  s.startCondition.sendThen s.addrWriteByte fun t =>
    t.sendThen t.reg fun u => u.startCondition.sendThen u.addrReadByte State.receiveVal

/-- BEGIN releases both lines (43_transfer_commands.md R120): SDA first, SCL second, no WAIT
(92_eei_decisions.md D7; log 16). -/
def execBegin (s : State) : Host.Outcome State Fault Refusal :=
  .next (s.sdaRel.sclRel.setTxnOpen false).endCommand

/-- WRITE sends `LEN` bytes of `TXBUF` to the device at `ADDR` (43_transfer_commands.md R121). -/
def execWrite (s : State) : Host.Outcome State Fault Refusal := .next s.runWrite

/-- READ receives `LEN` bytes into `RXBUF` (43_transfer_commands.md R123). -/
def execRead (s : State) : Host.Outcome State Fault Refusal := .next s.runRead

/-- WRITE_REG writes `VAL` to register `REG` of the device (43_transfer_commands.md R122). -/
def execWriteReg (s : State) : Host.Outcome State Fault Refusal := .next s.runWriteReg

/-- READ_REG reads register `REG` of the device into `VAL` (43_transfer_commands.md R124). -/
def execReadReg (s : State) : Host.Outcome State Fault Refusal := .next s.runReadReg

end Sys2Proof.Machine
end

