-- ==== Sys2Proof/Machine/Pins.lean ====
section
/-! DEFINITION. Level P: the meanings of the six pin primitives (40_pin_driver.md R80 to R86). -/

namespace Sys2Proof.Machine

/-- SDA_LOW drives the data line low (40_pin_driver.md R81). -/
def execSdaLow (s : State) : Host.Outcome State Fault Refusal := .next s.sdaLow

/-- SDA_REL releases the data line (40_pin_driver.md R82). -/
def execSdaRel (s : State) : Host.Outcome State Fault Refusal := .next s.sdaRel

/-- SCL_LOW drives the clock line low (40_pin_driver.md R83). -/
def execSclLow (s : State) : Host.Outcome State Fault Refusal := .next s.sclLow

/-- SCL_REL releases the clock line (40_pin_driver.md R84). -/
def execSclRel (s : State) : Host.Outcome State Fault Refusal := .next s.sclRel

/-- SDA_SAMPLE reads the level of the data line (40_pin_driver.md R86). -/
def execSdaSample (s : State) : Host.Outcome State Fault Refusal := .next s.sdaSample

/-- WAIT blocks for one timing unit (40_pin_driver.md R85). -/
def execWait (s : State) : Host.Outcome State Fault Refusal := .next s.wait

end Sys2Proof.Machine
end

