-- ==== Sys2Proof/Machine/Dispatch.lean ====
section
/-! DEFINITION. One arm per operation of the code table (30_encoding.md R68). -/

namespace Sys2Proof.Machine

open Sys2Proof

def exec (i : Instr) (s : State) : Host.Outcome State Fault Refusal :=
  match i with
  | .sdaLow => Sys2Proof.Machine.execSdaLow s
  | .sdaRel => Sys2Proof.Machine.execSdaRel s
  | .sclLow => Sys2Proof.Machine.execSclLow s
  | .sclRel => Sys2Proof.Machine.execSclRel s
  | .sdaSample => Sys2Proof.Machine.execSdaSample s
  | .wait => Sys2Proof.Machine.execWait s
  | .start => Sys2Proof.Machine.execStart s
  | .stop => Sys2Proof.Machine.execStop s
  | .wbyte => Sys2Proof.Machine.execWbyte s
  | .rbyte a => Sys2Proof.Machine.execRbyte a s
  | .begin => Sys2Proof.Machine.execBegin s
  | .write => Sys2Proof.Machine.execWrite s
  | .read => Sys2Proof.Machine.execRead s
  | .writeReg => Sys2Proof.Machine.execWriteReg s
  | .readReg => Sys2Proof.Machine.execReadReg s

end Sys2Proof.Machine
end

