-- ==== Sys2Proof/Decode.lean ====
section
/-! DEFINITION. The operation codes (30_encoding.md R66 to R68, R71): the decoder, total on every byte
and refusing the reserved codes by name, and after it the encoder, from the same table. -/

namespace Sys2Proof

/-- Why a byte names no operation. -/
inductive BadCode where
  /-- A code outside the table of R68 (30_encoding.md R71). -/
  | reserved (code : Byte)
  deriving DecidableEq, Repr

/-- `bits[7:4]`, the level field of a code (30_encoding.md R67). -/
def levelField (code : Byte) : BitVec 4 := code.extractLsb' 4 4

/-- `bits[3:0]`, the operation field of a code (30_encoding.md R67). -/
def opField (code : Byte) : BitVec 4 := code.extractLsb' 0 4

/-- `bits[0]`, the acknowledge operand of RBYTE (30_encoding.md R67). -/
def ackField (code : Byte) : Bool := code.getLsbD 0

/-- The pin primitive an operation field names (30_encoding.md R68, level P). -/
def decodePin (op : BitVec 4) : Option Instr :=
  match op.toNat with
  | 1 => some .sdaLow
  | 2 => some .sdaRel
  | 3 => some .sclLow
  | 4 => some .sclRel
  | 5 => some .sdaSample
  | 6 => some .wait
  | _ => none

/-- The bus phase an operation field names (30_encoding.md R68, level S); `a` is the code's bit 0. -/
def decodePhase (op : BitVec 4) (a : Bool) : Option Instr :=
  match op.toNat with
  | 0 => some .start
  | 1 => some .stop
  | 2 => some .wbyte
  | 4 => some (.rbyte a)
  | 5 => some (.rbyte a)
  | _ => none

/-- The command an operation field names (30_encoding.md R68, level C). -/
def decodeCommand (op : BitVec 4) : Option Instr :=
  match op.toNat with
  | 0 => some .begin
  | 1 => some .write
  | 2 => some .read
  | 3 => some .writeReg
  | 4 => some .readReg
  | _ => none

/-- The operation a code names, if the table of R68 has it. -/
def decode? (code : Byte) : Option Instr :=
  match (levelField code).toNat with
  | 0 => decodePin (opField code)
  | 1 => decodePhase (opField code) (ackField code)
  | 2 => decodeCommand (opField code)
  | _ => none

/-- The decoder: the operation of a code, or the refusal of a reserved one (30_encoding.md R71). -/
def decode (code : Byte) : Except BadCode Instr :=
  match decode? code with
  | some i => .ok i
  | none => .error (.reserved code)

/-- The code of an operation (30_encoding.md R68). -/
def encode : Instr → Byte
  | .sdaLow => 0x01
  | .sdaRel => 0x02
  | .sclLow => 0x03
  | .sclRel => 0x04
  | .sdaSample => 0x05
  | .wait => 0x06
  | .start => 0x10
  | .stop => 0x11
  | .wbyte => 0x12
  | .rbyte a => 0x14 ||| (BitVec.ofBool a).setWidth 8
  | .begin => 0x20
  | .write => 0x21
  | .read => 0x22
  | .writeReg => 0x23
  | .readReg => 0x24

/-- The level field of an operation's code (30_encoding.md R67). -/
def OpLevel.field : OpLevel → BitVec 4
  | .p => 0
  | .s => 1
  | .c => 2

/-- The one instruction word of an opcode-table row: its 8 bits are the low bits of `w` (every row
has one 8-bit word, 30_encoding.md R67, R72). -/
def tableCode (_nbits w : Nat) : Byte := BitVec.ofNat 8 w

/-- What the decoder reads from a row's bits, numbered as the opcode table numbers them. -/
def decodeTableWord (nbits w : Nat) : Option Instr :=
  match decode (tableCode nbits w) with
  | .ok i => some i
  | .error _ => none

end Sys2Proof
end

