-- ==== Sys2Proof/Machine/HostPort.lean ====
section
/-! DEFINITION. What the host does to the block (30_encoding.md R69, R71, 10_state.md R20 to R23,
60_exceptions.md R155, 70_reset_and_hazards.md R170, R171). -/

namespace Sys2Proof.Machine

/-- The command `code` has been written to `CMD`: it is being run from here (10_state.md R19, R23). -/
def State.issued (s : State) (code : Byte) : State :=
  { s with cmd := code, busy := true, seq := .op code }

/-- A write of `CMD`: a command's code issues it; a reserved code, and a level P or S code, is refused
(30_encoding.md R69, R71). -/
def writeCmd (code : Byte) (s : State) : Host.Outcome State Fault Refusal :=
  match decode code with
  | .error (.reserved c) => .refused (.reservedCode c)
  | .ok i => if i.hostIssuable then .next (s.issued code) else .refused (.notHostIssuable code)

/-- The byte a host read delivers; a cell of `RXBUF` is one that exists. -/
def State.hostRead (s : State) : HostReg → Byte
  | .status => s.status
  | .cmd => s.cmd
  | .val => s.val
  | .rx i => Mem.read s.rxbuf i

/-- A host read: the byte is delivered and the block is as it was. -/
def readReg (r : HostReg) (s : State) : Host.Outcome State Fault Refusal :=
  match r with
  | .rx i => if cellExists i then .next { s with rdata := s.hostRead (.rx i) } else .fault (.noSuchCell i)
  | .status => .next { s with rdata := s.hostRead .status }
  | .cmd => .next { s with rdata := s.hostRead .cmd }
  | .val => .next { s with rdata := s.hostRead .val }

/-- A host write of cell `i` of `TXBUF` (10_state.md R21). -/
def writeTx (i : Nat) (v : Byte) (s : State) : Host.Outcome State Fault Refusal :=
  if cellExists i then .next { s with txbuf := Mem.write s.txbuf i v } else .fault (.noSuchCell i)

/-- What an access does in a block that no command is running in. A write of `STATUS` is ignored
(10_state.md R23). -/
def performIdle (a : HostAccess) (s : State) : Host.Outcome State Fault Refusal :=
  match a with
  | .writeAddr v => .next { s with addr := v }
  | .writeLen v => .next { s with len := v }
  | .writeReg v => .next { s with reg := v }
  | .writeVal v => .next { s with val := v }
  | .writeTx i v => writeTx i v s
  | .writeCmd code => writeCmd code s
  | .writeStatus _ => .next s
  | .read r => readReg r s
  | .drivePin _ _ => .refused .pinsNotExclusive

/-- One host access: while `BUSY` = 1 a write of `CMD`, an operand register or `TXBUF` is refused
(70_reset_and_hazards.md R170). -/
def perform (a : HostAccess) (s : State) : Host.Outcome State Fault Refusal :=
  if s.busy && a.needsIdle then .refused .reentrantAccess else performIdle a s

/-- The access that does not wait for the running command, if one is at the head of the host's list
(70_reset_and_hazards.md R170). -/
def State.reentrant? (s : State) : Option HostAccess :=
  match s.host with
  | ⟨true, a⟩ :: _ => some a
  | ⟨false, _⟩ :: _ => none
  | [] => none

/-- The host's next access has been taken from its list. -/
def State.hostTaken (s : State) : State := { s with host := s.host.tail }

/-- The host's next access, in a block that no command is running in; with none the block does
nothing (70_reset_and_hazards.md R160). -/
def hostStep (s : State) : Host.Outcome State Fault Refusal :=
  match s.host with
  | [] => .next s
  | e :: _ => perform e.access s.hostTaken

end Sys2Proof.Machine
end

