-- ==== Sys2Proof/Machine/Sequencer.lean ====
section
/-! DEFINITION. The sequencer, one pin primitive at a time (10_state.md R24, 40_pin_driver.md R80):
which primitive a position names, what a phase does before its first primitive and after each, and
where control goes next (43_transfer_commands.md R125). It is the second form of the commands of
Commands.lean; 10_state.md R24 says the two are equivalent. -/

namespace Sys2Proof.Machine

/-- The bus phase (or BEGIN) that a place runs (43_transfer_commands.md R120 to R124). -/
def Place.op (p : Place) (s : State) : Instr :=
  match p with
  | .beginReleases => .begin
  | .writeStart | .readStart | .writeRegStart | .readRegStart | .readRegRestart => .start
  | .writeAddr | .writeData | .readAddr | .writeRegAddr | .writeRegReg | .writeRegVal => .wbyte
  | .readRegAddrWrite | .readRegReg | .readRegAddrRead => .wbyte
  | .readData => .rbyte (ackWanted s.idx s.len)
  | .readRegData => .rbyte false
  | .writeStop _ | .readStop _ | .writeRegStop _ | .readRegStop _ => .stop

/-- How many primitives a phase has (10_state.md R24, 41_bus_conditions.md R103). A level P operation
is one primitive; WRITE, READ, WRITE_REG and READ_REG are no phase. -/
def primCount : Instr → Nat
  | .begin => 2
  | .start => 7
  | .stop => 6
  | .wbyte => 55
  | .rbyte _ => 63
  | .sdaLow | .sdaRel | .sclLow | .sclRel | .sdaSample | .wait => 1
  | .write | .read | .writeReg | .readReg => 0

/-- SDA's primitive for a bit: low for 0, released for 1 (30_encoding.md R63). -/
def bitPrim (bit : Bool) : Instr := if bit then .sdaRel else .sdaLow

/-- Primitive `k` of a cell in which the block drives `bit` (42_byte_transfer.md R112); the seventh
is RBYTE's closing release. -/
def drivenCellPrim (k : Nat) (bit : Bool) : Instr :=
  match k with
  | 0 => bitPrim bit
  | 1 => .wait
  | 2 => .sclRel
  | 3 => .wait
  | 4 => .sclLow
  | 5 => .wait
  | _ => .sdaRel

/-- Primitive `k` of a cell in which the block samples (42_byte_transfer.md R112). -/
def sampledCellPrim (k : Nat) : Instr :=
  match k with
  | 0 => .sdaRel
  | 1 => .wait
  | 2 => .sclRel
  | 3 => .wait
  | 4 => .sdaSample
  | 5 => .sclLow
  | _ => .wait

/-- Primitive `k` of START (41_bus_conditions.md R100). -/
def startPrim (k : Nat) : Instr :=
  match k with
  | 0 => .sdaRel
  | 1 => .sclRel
  | 2 => .wait
  | 3 => .sdaLow
  | 4 => .wait
  | 5 => .sclLow
  | _ => .wait

/-- Primitive `k` of STOP (41_bus_conditions.md R101). -/
def stopPrim (k : Nat) : Instr :=
  match k with
  | 0 => .sdaLow
  | 1 => .wait
  | 2 => .sclRel
  | 3 => .wait
  | 4 => .sdaRel
  | _ => .wait

/-- Primitive `k` of BEGIN (43_transfer_commands.md R120). -/
def beginPrim (k : Nat) : Instr := if k = 0 then .sdaRel else .sclRel

/-- Primitive `k` of a phase whose shift register holds `shr`: WBYTE's eight cells of six and its
acknowledge cell, RBYTE's eight cells of seven and its acknowledge cell (42_byte_transfer.md R110,
R111). -/
def primAt (op : Instr) (k : Nat) (shr : Byte) : Instr :=
  match op with
  | .begin => beginPrim k
  | .start => startPrim k
  | .stop => stopPrim k
  | .wbyte => if k < 48 then drivenCellPrim (k % 6) (shr.getLsbD 7) else sampledCellPrim (k - 48)
  | .rbyte a => if k < 56 then sampledCellPrim (k % 7) else drivenCellPrim (k - 56) (!a)
  | .sdaLow => .sdaLow
  | .sdaRel => .sdaRel
  | .sclLow => .sclLow
  | .sclRel => .sclRel
  | .sdaSample => .sdaSample
  | .wait => .wait
  | .write => .wait
  | .read => .wait
  | .writeReg => .wait
  | .readReg => .wait

/-- Runs a pin primitive. The other levels are no primitives and nothing of theirs is run here. -/
def runPrim (i : Instr) (s : State) : State :=
  match i with
  | .sdaLow => s.sdaLow
  | .sdaRel => s.sdaRel
  | .sclLow => s.sclLow
  | .sclRel => s.sclRel
  | .sdaSample => s.sdaSample
  | .wait => s.wait
  | .start | .stop | .wbyte | .rbyte _ => s
  | .begin | .write | .read | .writeReg | .readReg => s

/-- The byte a WBYTE place sends (43_transfer_commands.md R121 to R124). -/
def Place.byteToSend (p : Place) (s : State) : Byte :=
  match p with
  | .writeAddr | .writeRegAddr | .readRegAddrWrite => s.addrWriteByte
  | .readAddr | .readRegAddrRead => s.addrReadByte
  | .writeData => s.txByte s.idx.toNat
  | .writeRegReg | .readRegReg => s.reg
  | .writeRegVal => s.val
  | .beginReleases | .writeStart | .readStart | .writeRegStart | .readRegStart => 0
  | .readRegRestart | .readData | .readRegData => 0
  | .writeStop _ | .readStop _ | .writeRegStop _ | .readRegStop _ => 0

/-- What a phase does before its first primitive: WBYTE loads `SHR` (reading `TXBUF` there,
20_memory.md R51 b) and RBYTE clears it, and both clear `BITCNT` (42_byte_transfer.md R110, R111). -/
def enterPhase (p : Place) (op : Instr) (s : State) : State :=
  match op with
  | .wbyte => s.loadByte (p.byteToSend s)
  | .rbyte _ => s.loadByte 0
  | .sdaLow | .sdaRel | .sclLow | .sclRel | .sdaSample | .wait => s
  | .start | .stop | .begin | .write | .read | .writeReg | .readReg => s

/-- What a phase does after its primitive `k` has run: WBYTE shifts and counts at the end of a data
cell and latches `ACKF` at its end; RBYTE shifts after each sample and counts at the end of a data
cell; START and STOP write `TXN_OPEN` at their end, BEGIN at its end (41_bus_conditions.md R100, R101,
42_byte_transfer.md R110, R111, 43_transfer_commands.md R120). -/
def afterPrim (op : Instr) (k : Nat) (s : State) : State :=
  match op with
  | .wbyte =>
    if k < 48 then if k % 6 = 5 then s.shiftSent.countBit else s
    else if k = 54 then s.latchAck else s
  | .rbyte _ =>
    if k < 56 then
      if k % 7 = 4 then s.shiftSampled else if k % 7 = 6 then s.countBit else s
    else s
  | .start => if k = 6 then s.setTxnOpen true else s
  | .stop => if k = 5 then s.setTxnOpen false else s
  | .begin => if k = 1 then s.setTxnOpen false else s
  | .sdaLow | .sdaRel | .sclLow | .sclRel | .sdaSample | .wait => s
  | .write | .read | .writeReg | .readReg => s

/-- The sequencer goes to the first primitive of a place. -/
def State.goto (s : State) (p : Place) : State := s.setSeq (.path p 0)

/-- After a WBYTE: on to `p` if the byte was acknowledged, else to the failure exit
(43_transfer_commands.md R125). -/
def State.gotoIfAcked (s : State) (p fail : Place) : State :=
  if s.ackf then s.goto p else s.goto fail

/-- The loop test of WRITE: another data byte while `IDX < LEN`, else the STOP of a success. -/
def State.writeNext (s : State) : State :=
  if s.moreBytes then s.goto .writeData else s.goto (.writeStop true)

/-- The loop test of READ: another data byte while `IDX < LEN`, else the STOP of a success. -/
def State.readNext (s : State) : State :=
  if s.moreBytes then s.goto .readData else s.goto (.readStop true)

/-- Where control goes when a phase has run (43_transfer_commands.md R120 to R125), with what the
command does between its phases: `IDX`, `RXBUF[IDX]` (after the last event of byte `IDX`,
20_memory.md R51 b), `VAL`, and at the end `OK`, `BUSY`, `SEQ` (20_memory.md R55). -/
def nextPlace (p : Place) (s : State) : State :=
  match p with
  | .beginReleases => s.endCommand
  | .writeStart => s.goto .writeAddr
  | .writeAddr => if s.ackf then (s.setIdx 0).writeNext else s.goto (.writeStop false)
  | .writeData => if s.ackf then s.countByte.writeNext else s.goto (.writeStop false)
  | .writeStop ok => (s.setOk ok).endCommand
  | .readStart => s.goto .readAddr
  | .readAddr => if s.readAborts then s.goto (.readStop false) else (s.setIdx 0).readNext
  | .readData => (s.setRx s.idx.toNat s.shr).countByte.readNext
  | .readStop ok => (s.setOk ok).endCommand
  | .writeRegStart => s.goto .writeRegAddr
  | .writeRegAddr => s.gotoIfAcked .writeRegReg (.writeRegStop false)
  | .writeRegReg => s.gotoIfAcked .writeRegVal (.writeRegStop false)
  | .writeRegVal => s.gotoIfAcked (.writeRegStop true) (.writeRegStop false)
  | .writeRegStop ok => (s.setOk ok).endCommand
  | .readRegStart => s.goto .readRegAddrWrite
  | .readRegAddrWrite => s.gotoIfAcked .readRegReg (.readRegStop false)
  | .readRegReg => s.gotoIfAcked .readRegRestart (.readRegStop false)
  | .readRegRestart => s.goto .readRegAddrRead
  | .readRegAddrRead => s.gotoIfAcked .readRegData (.readRegStop false)
  | .readRegData => (s.setVal s.shr).goto (.readRegStop true)
  | .readRegStop ok => (s.setOk ok).endCommand

/-- The state in which primitive `k` of place `p` runs: at the phase's first primitive the phase has
been entered. -/
def entered (p : Place) (k : Nat) (s : State) : State :=
  if k = 0 then enterPhase p (p.op s) s else s

/-- The primitive that runs next at a position (10_state.md R24). -/
def nextPrim (p : Place) (k : Nat) (s : State) : Instr := primAt (p.op s) k (entered p k s).shr

/-- Primitive `k` of place `p` has run, with what its phase does after it; the position is as it was. -/
def ranPrim (p : Place) (k : Nat) (s : State) : State :=
  afterPrim (p.op s) k (runPrim (nextPrim p k s) (entered p k s))

/-- One primitive of a command: primitive `k` of place `p`, and the move to the next position. -/
def tick (p : Place) (k : Nat) (s : State) : State :=
  if k + 1 < primCount (p.op s) then (ranPrim p k s).setSeq (.path p (k + 1))
  else nextPlace p (ranPrim p k s)

/-- The first place of a command. -/
def firstPlace : Command → Place
  | .begin => .beginReleases
  | .write => .writeStart
  | .read => .readStart
  | .writeReg => .writeRegStart
  | .readReg => .readRegStart

end Sys2Proof.Machine
end

