-- ==== Sys2Proof/Machine/Fetch.lean ====
section
/-! DEFINITION. One step of the machine, by what `SEQ` holds (10_state.md R24), and how the operation
of a given code is put where the next step takes it from. -/

namespace Sys2Proof.Machine

/-- An operation has been run on its own: no command is running (20_memory.md R55). A command's
meaning has said so itself already. -/
def andEnd : Host.Outcome State Fault Refusal → Host.Outcome State Fault Refusal
  | .next t => .next t.endCommand
  | .fault r => .fault r
  | .refused r => .refused r

/-- Runs a decoded operation from its head: a command by its first primitive where the grain is one
primitive, anything else by its meaning as a whole (10_state.md R24; log 2, 13). -/
def runInstr (i : Instr) (s : State) : Host.Outcome State Fault Refusal :=
  match s.params.grain, i.command? with
  | .primitive, some c => .next (tick (firstPlace c) 0 s)
  | .primitive, none => andEnd (exec i s)
  | .operation, _ => andEnd (exec i s)

/-- Runs the operation whose code `SEQ` holds. -/
def runCode (code : Byte) (s : State) : Host.Outcome State Fault Refusal :=
  match decode code with
  | .ok i => runInstr i s
  | .error (.reserved c) => .refused (.reservedCode c)

/-- One step: the host's next access while no command runs; otherwise an access that does not wait
(70_reset_and_hazards.md R170), or the sequencer. -/
def oneStep (s : State) : Host.Outcome State Fault Refusal :=
  match s.seq with
  | .idle => hostStep s
  | .op code =>
    match s.reentrant? with
    | some a => perform a s.hostTaken
    | none => runCode code s
  | .path p k =>
    match s.reentrant? with
    | some a => perform a s.hostTaken
    | none => .next (tick p k s)

/-- The host accesses that do wait for a running command, from the first such on. -/
def dropReentrant (l : List HostEvent) : List HostEvent := l.dropWhile (fun e => e.reentrant)

/-- The sequencer stands at the head of the operation whose code is `code`, to be run as a whole by
the next step, and no host access comes first. -/
def State.atHead (s : State) (code : Byte) : State :=
  { s with busy := true, seq := .op code, host := dropReentrant s.host,
           params := { s.params with grain := .operation } }

end Sys2Proof.Machine
end

