-- ==== Sys2Proof/Machine/Step.lean ====
section
/-! DEFINITION. The step of the machine, and an opcode-table word placed where the next step takes
its operation from. -/

namespace Sys2Proof.Machine

/-- One step of the block (10_state.md R24, 20_memory.md R51). -/
def step (s : State) : Host.Outcome State Fault Refusal := oneStep s

/-- `s` with the operation of an opcode-table row at the head of `SEQ`, as an issue leaves it, so that
the next step runs exactly it (log 13). -/
def State.withFetchWord (s : State) (nbits w : Nat) : State := s.atHead (tableCode nbits w)

end Sys2Proof.Machine
end

