-- ==== Sys2Proof/Machine/Trace.lean ====
section
/-! DEFINITION. The observation (20_memory.md R49, R50): counts and markers of a list of events, the
event lists the rules of 41_bus_conditions.md and 42_byte_transfer.md give, and what a monitor on the
two lines reads from them (30_encoding.md R60, R65). -/

namespace Sys2Proof.Machine

/-- The states of the two drivers, `(SDA_DRV, SCL_DRV)`. -/
abbrev Drivers := Drv × Drv

/-- The drivers of a state. -/
def State.drivers (s : State) : Drivers := (s.sdaDrv, s.sclDrv)

/-- The drivers after an event (40_pin_driver.md R81 to R86). -/
def Event.drivers (d : Drivers) : Event → Drivers
  | .sdaLow => (.drivenLow, d.2)
  | .sdaRel => (.released, d.2)
  | .sclLow => (d.1, .drivenLow)
  | .sclRel => (d.1, .released)
  | .wait => d
  | .sample _ => d

/-- The event is a master start marker: SDA goes low while SCL is released (20_memory.md R50). -/
def Event.isStart (d : Drivers) (e : Event) : Bool :=
  decide (e = .sdaLow) && decide (d = (.released, .released))

/-- The event is a master stop marker: SDA is released while SCL is released (20_memory.md R50). -/
def Event.isStop (d : Drivers) (e : Event) : Bool :=
  decide (e = .sdaRel) && decide (d = (.drivenLow, .released))

/-- The drivers after a list of events. -/
def Trace.drivers (d : Drivers) : List Event → Drivers
  | [] => d
  | e :: rest => Trace.drivers (e.drivers d) rest

/-- The number of start markers in a trace that begins in driver states `d` (20_memory.md R50). -/
def Trace.starts (d : Drivers) : List Event → Nat
  | [] => 0
  | e :: rest => (if e.isStart d then 1 else 0) + Trace.starts (e.drivers d) rest

/-- The number of stop markers in a trace that begins in driver states `d` (20_memory.md R50). -/
def Trace.stops (d : Drivers) : List Event → Nat
  | [] => 0
  | e :: rest => (if e.isStop d then 1 else 0) + Trace.stops (e.drivers d) rest

/-- The number of waits in a trace. -/
def Trace.waits (l : List Event) : Nat := l.countP (fun e => decide (e = .wait))

/-- The event is a sample. -/
def Event.isSample : Event → Bool
  | .sample _ => true
  | .sdaLow | .sdaRel | .sclLow | .sclRel | .wait => false

/-- The number of samples in a trace. -/
def Trace.samples (l : List Event) : Nat := l.countP Event.isSample

/-- The least time a trace takes: its waits times `T_WAIT` (70_reset_and_hazards.md R180). -/
def Trace.minTime (l : List Event) : Nat := Trace.waits l * Config.tWait

/-- The line a driver event acts on. -/
def Event.line? : Event → Option Line
  | .sdaLow | .sdaRel => some .sda
  | .sclLow | .sclRel => some .scl
  | .wait | .sample _ => none

/-! ## The event lists of the phases -/

/-- START's events (41_bus_conditions.md R100). -/
def startEvents : List Event := [.sdaRel, .sclRel, .wait, .sdaLow, .wait, .sclLow, .wait]

/-- STOP's events (41_bus_conditions.md R101). -/
def stopEvents : List Event := [.sdaLow, .wait, .sclRel, .wait, .sdaRel, .wait]

/-- SDA's event for a bit: low for 0, released for 1 (30_encoding.md R63). -/
def bitEvent (bit : Bool) : Event := if bit then .sdaRel else .sdaLow

/-- The clock cell in which the block drives a bit (42_byte_transfer.md R112). -/
def drivenCell (bit : Bool) : List Event := [bitEvent bit, .wait, .sclRel, .wait, .sclLow, .wait]

/-- The clock cell in which the block samples (42_byte_transfer.md R112). -/
def sampledCell (v : Bool) : List Event :=
  [.sdaRel, .wait, .sclRel, .wait, .sample v, .sclLow, .wait]

/-- The bits of a byte, most significant first (20_memory.md R41). -/
def byteBits (b : Byte) : List Bool :=
  [b.getLsbD 7, b.getLsbD 6, b.getLsbD 5, b.getLsbD 4, b.getLsbD 3, b.getLsbD 2, b.getLsbD 1, b.getLsbD 0]

/-- WBYTE's events for the byte `b` and the acknowledge sample `v` (42_byte_transfer.md R110). -/
def wbyteEvents (b : Byte) (v : Bool) : List Event := (byteBits b).flatMap drivenCell ++ sampledCell v

/-- RBYTE's events for the samples of the byte `b` and the acknowledge `a` (42_byte_transfer.md R111). -/
def rbyteEvents (b : Byte) (a : Bool) : List Event :=
  (byteBits b).flatMap sampledCell ++ drivenCell (!a) ++ [.sdaRel]

/-- The events of `bytes` sent and acknowledged one after another. -/
def ackedBytes (bytes : List Byte) : List Event := bytes.flatMap (fun b => wbyteEvents b false)

/-! ## What the wire carries -/

/-- What a monitor on the two lines reads (30_encoding.md R60): a start, a stop, one clocked bit. -/
inductive Symbol where
  | start
  | stop
  | bit (v : Bool)
  deriving DecidableEq, Repr

/-- A monitor's state: the drivers, and the bit the present clock pulse carries, none while the clock
is low or once the pulse has carried a marker. -/
structure Monitor where
  drivers : Drivers
  pulse : Option Bool
  deriving DecidableEq, Repr

/-- The monitor after one event, and the symbol it reads at it: a marker at an SDA edge while SCL is
released (30_encoding.md R65), a bit at the end of a clock pulse that carried no marker. The bit is
the level of the block's driver at the rise of the clock (R63), or the level a sample found (R64). -/
def Monitor.next (m : Monitor) (e : Event) : Monitor × List Symbol :=
  let d := e.drivers m.drivers
  if e.isStart m.drivers then (⟨d, none⟩, [.start])
  else if e.isStop m.drivers then (⟨d, none⟩, [.stop])
  else
    match e with
    | .sclRel => if m.drivers.2 = .drivenLow then (⟨d, some m.drivers.1.bit⟩, []) else (⟨d, m.pulse⟩, [])
    | .sclLow => (⟨d, none⟩, (m.pulse.map Symbol.bit).toList)
    | .sample v => (⟨d, some v⟩, [])
    | .sdaLow | .sdaRel | .wait => (⟨d, m.pulse⟩, [])

/-- What the monitor reads from a list of events. -/
def Monitor.read (m : Monitor) : List Event → List Symbol
  | [] => []
  | e :: rest => (m.next e).2 ++ Monitor.read (m.next e).1 rest

/-- What a monitor that starts on an idle bus, both lines released, reads. -/
def wireSymbols (l : List Event) : List Symbol := Monitor.read ⟨(.released, .released), none⟩ l

/-- A byte and its acknowledge slot on the wire (30_encoding.md R60, R64): low acknowledges. -/
def byteSymbols (b : Byte) (ack : Bool) : List Symbol := (byteBits b ++ [!ack]).map Symbol.bit

end Sys2Proof.Machine
end

