-- ==== Sys2Proof/Safety.lean ====
section
/-! DEFINITION. What counts as a safe block: the invariant of the whole machine, at every sequencer
position, in the terms the statements use. -/

namespace Sys2Proof.Machine

/-- The command a place belongs to (10_state.md R24). -/
def Place.command : Place → Command
  | .beginReleases => .begin
  | .writeStart | .writeAddr | .writeData | .writeStop _ => .write
  | .readStart | .readAddr | .readData | .readStop _ => .read
  | .writeRegStart | .writeRegAddr | .writeRegReg | .writeRegVal | .writeRegStop _ => .writeReg
  | .readRegStart | .readRegAddrWrite | .readRegReg | .readRegRestart | .readRegAddrRead => .readReg
  | .readRegData | .readRegStop _ => .readReg

/-- `TXN_OPEN` while a place runs: set from the end of the first START to the end of the STOP, also
across the repeated start (10_state.md R18). -/
def Place.opened : Place → Bool
  | .beginReleases | .writeStart | .readStart | .writeRegStart | .readRegStart => false
  | .writeAddr | .writeData | .readAddr | .readData | .writeRegAddr | .writeRegReg => true
  | .writeRegVal | .readRegAddrWrite | .readRegReg | .readRegRestart | .readRegAddrRead => true
  | .readRegData | .writeStop _ | .readStop _ | .writeRegStop _ | .readRegStop _ => true

/-- What `SDA_DRV` is known to be when primitive `k` of a cell in which the block samples is about to
run (42_byte_transfer.md R112). -/
def sampledCellSda (k : Nat) : Option Drv := if k = 0 then none else some .released

/-- What `SCL_DRV` is when primitive `k` of a cell in which the block samples is about to run. -/
def sampledCellScl (k : Nat) : Drv := if k < 3 then .drivenLow else if k < 6 then .released else .drivenLow

/-- What `SCL_DRV` is when primitive `k` of a cell in which the block drives a bit is about to run. -/
def drivenCellScl (k : Nat) : Drv := if k < 3 then .drivenLow else if k < 5 then .released else .drivenLow

/-- What `SDA_DRV` is known to be when primitive `k` of a phase is about to run, where the rules fix
it (41_bus_conditions.md R100, R101, R103, 42_byte_transfer.md R110, R111). -/
def sdaKnown (op : Instr) (k : Nat) : Option Drv :=
  match op with
  | .begin => if k = 0 then none else some .released
  | .start => if k = 0 then none else if k < 4 then some .released else some .drivenLow
  | .stop => if k = 0 then some .released else if k < 5 then some .drivenLow else some .released
  | .wbyte => if k < 48 then none else sampledCellSda (k - 48)
  | .rbyte _ => if k < 56 then if k = 0 then some .released else sampledCellSda (k % 7) else none
  | .sdaLow | .sdaRel | .sclLow | .sclRel | .sdaSample | .wait => none
  | .write | .read | .writeReg | .readReg => none

/-- What `SCL_DRV` is known to be when primitive `k` of a phase is about to run. -/
def sclKnown (op : Instr) (k : Nat) : Option Drv :=
  match op with
  | .begin => none
  | .start => if k < 2 then none else if k < 6 then some .released else some .drivenLow
  | .stop => if k < 3 then some .drivenLow else some .released
  | .wbyte => if k < 48 then some (drivenCellScl (k % 6)) else some (sampledCellScl (k - 48))
  | .rbyte _ => if k < 56 then some (sampledCellScl (k % 7)) else some (drivenCellScl (k - 56))
  | .sdaLow | .sdaRel | .sclLow | .sclRel | .sdaSample | .wait => none
  | .write | .read | .writeReg | .readReg => none

/-- How many bits `BITCNT` has counted when primitive `k` of a byte transfer is about to run
(10_state.md R15); at the first primitive it is not yet cleared. -/
def bitsKnown (op : Instr) (k : Nat) : Option Nat :=
  match op with
  | .wbyte => if k = 0 then none else some (min (k / 6) 8)
  | .rbyte _ => if k = 0 then none else some (min (k / 7) 8)
  | .begin | .start | .stop => none
  | .sdaLow | .sdaRel | .sclLow | .sclRel | .sdaSample | .wait => none
  | .write | .read | .writeReg | .readReg => none

/-- The byte loops run with `IDX < LEN` (10_state.md R25, 43_transfer_commands.md R125). -/
def Place.indexOk (p : Place) (s : State) : Prop :=
  p = .writeData ∨ p = .readData → s.idx < s.len

/-- A position inside a command and the state agree: the index is one of the phase's, the lines are
where the rules have put them, `TXN_OPEN`, `BITCNT` and `IDX` are what the place makes them. -/
def State.atPlace (s : State) (p : Place) (k : Nat) : Prop :=
  k < primCount (p.op s)
    ∧ s.txnOpen = p.opened
    ∧ (∀ d, sdaKnown (p.op s) k = some d → s.sdaDrv = d)
    ∧ (∀ d, sclKnown (p.op s) k = some d → s.sclDrv = d)
    ∧ (∀ n, bitsKnown (p.op s) k = some n → s.bitcnt.toNat = n)
    ∧ p.indexOk s
    ∧ s.cmd = encode p.command.instr

/-- `SEQ`, `BUSY`, `TXN_OPEN` and `CMD` agree: with no command running `BUSY` = 0 and `TXN_OPEN` = 0
(10_state.md R18, R19); while one runs `BUSY` = 1 and `CMD` holds its code (R23). -/
def State.seqOk (s : State) : Prop :=
  match s.seq with
  | .idle => s.busy = false ∧ s.txnOpen = false
  | .op code => s.busy = true ∧ s.txnOpen = false ∧ s.cmd = code ∧ ∃ c : Command, code = encode c.instr
  | .path p k => s.busy = true ∧ s.atPlace p k

/-- THE INVARIANT of the block: the buffers keep their canonical form, `BITCNT` is 0 to 8
(10_state.md R15), and the sequencer and the registers agree. -/
def State.Inv (s : State) : Prop :=
  Mem.wf s.txbuf = true ∧ Mem.wf s.rxbuf = true ∧ s.bitcnt.toNat ≤ 8 ∧ s.seqOk

/-- The bus is where BEGIN or a transfer command leaves it: between commands, and until a command's
first SCL event, both lines are released, and the repeated start is entered with SDA released and SCL
low (41_bus_conditions.md R103). It holds from the first BEGIN or transfer command on
(70_reset_and_hazards.md R161). -/
def State.busSettled (s : State) : Prop :=
  match s.seq with
  | .idle => s.drivers = (.released, .released)
  | .op _ => s.drivers = (.released, .released)
  | .path p k =>
    (p.opened = false → k ≤ 1 → s.drivers = (.released, .released))
      ∧ (p = .readRegRestart → k ≤ 1 → s.drivers = (.released, .drivenLow))

/-- The head of the host's list waits for the running command (70_reset_and_hazards.md R170). -/
def State.noReentry (s : State) : Prop := s.reentrant? = none

/-- The run from `s` to `t` added events, and they have this length and this many waits. -/
def emits (s t : State) (events waits : Nat) : Prop :=
  ∃ ev, t.trace = s.trace ++ ev ∧ ev.length = events ∧ Trace.waits ev = waits

/-- A row of the phase table (41_bus_conditions.md R103): the drivers left, and the markers, events
and waits of the run from `s` to `t`. -/
def phaseRow (s t : State) (leaves : Drivers) (starts stops events waits : Nat) : Prop :=
  t.drivers = leaves
    ∧ ∃ ev, t.trace = s.trace ++ ev ∧ Trace.starts s.drivers ev = starts
        ∧ Trace.stops s.drivers ev = stops ∧ ev.length = events ∧ Trace.waits ev = waits

/-- The bytes WRITE sends: the address byte, then `TXBUF[0]` to `TXBUF[LEN-1]` (20_memory.md R42). -/
def State.writeBytes (s : State) : List Byte :=
  s.addrWriteByte :: (List.range s.len.toNat).map s.txByte

/-- The byte READ receives as number `i`: the environment's answers after that to the address byte. -/
def State.readByte (s : State) (i : Nat) : Byte := s.answerByte (1 + 8 * i)

/-- `RXBUF` with the first `n` received bytes in it, in increasing index (10_state.md R22). -/
def State.rxFilled (s : State) : Nat → Mem
  | 0 => s.rxbuf
  | n + 1 => Mem.write (State.rxFilled s n) n (s.readByte n)

/-- RBYTE's events for the `LEN` bytes of a READ: every byte but the last is acknowledged
(43_transfer_commands.md R123). -/
def State.readEvents (s : State) : List Event :=
  (List.range s.len.toNat).flatMap fun i => rbyteEvents (s.readByte i) (decide (i + 1 < s.len.toNat))

/-- What a transaction carries on the wire (30_encoding.md R60): one or more bytes with their
acknowledge slots. -/
def groupSymbols (l : List (Byte × Bool)) : List Symbol := l.flatMap fun p => byteSymbols p.1 p.2

/-- Adjacent driver events of one line are a release of SDA and another event of SDA, with SCL low, as
RBYTE's closing release makes them (40_pin_driver.md R87). -/
def Trace.adjacentOk (d : Drivers) : List Event → Bool
  | [] => true
  | [_] => true
  | x :: y :: rest =>
    (x.line?.isNone || decide (x.line? ≠ y.line?)
        || (decide (x = .sdaRel) && decide (y.line? = some .sda) && decide (d.2 = .drivenLow)))
      && Trace.adjacentOk (x.drivers d) (y :: rest)

/-- Events `k` and `k + 1` of a trace are driver events of one line (40_pin_driver.md R87). -/
def Trace.pairAt (ev : List Event) (k : Nat) : Prop :=
  ∃ x y, ev[k]? = some x ∧ ev[k + 1]? = some y ∧ x.line? ≠ none ∧ x.line? = y.line?

/-- Event `k` of a trace is a driver event that no WAIT follows directly (40_pin_driver.md R87). -/
def Trace.noWaitAfter (ev : List Event) (k : Nat) : Prop :=
  ∃ x, ev[k]? = some x ∧ x.line? ≠ none ∧ ev[k + 1]? ≠ some .wait

/-- Event `k` of a trace is the first of a START, its release of SDA (41_bus_conditions.md R100). -/
def Trace.startOpensAt (ev : List Event) (k : Nat) : Prop :=
  ∃ pre post, ev = pre ++ startEvents ++ post ∧ k = pre.length

/-- Event `k` of a trace is the last of an RBYTE, its closing release of SDA, and the next RBYTE or the
STOP follows (42_byte_transfer.md R111, 40_pin_driver.md R87). -/
def Trace.rbyteEndsAt (ev : List Event) (k : Nat) : Prop :=
  ∃ pre b a post, ev = pre ++ rbyteEvents b a ++ post ∧ k + 1 = (pre ++ rbyteEvents b a).length
    ∧ (post = stopEvents ∨ ∃ b' a' rest, post = rbyteEvents b' a' ++ rest)

end Sys2Proof.Machine
end

