-- ==== Sys2Proof/Certificates/Slice0/Obligations.lean ====
section
/-! DEFINITION. The statements for the provers, from the numbered rules of the spec. -/

open Sys2Proof Sys2Proof.Machine

/-! ## Encodings -/

/-- 30_encoding.md R68: the code table, word by word. The numbers are the spec's own choice (D3). -/
def Obligations.CodeTableDecodes : Prop :=
  decode 0x01 = .ok .sdaLow ∧ decode 0x02 = .ok .sdaRel ∧ decode 0x03 = .ok .sclLow
    ∧ decode 0x04 = .ok .sclRel ∧ decode 0x05 = .ok .sdaSample ∧ decode 0x06 = .ok .wait
    ∧ decode 0x10 = .ok .start ∧ decode 0x11 = .ok .stop ∧ decode 0x12 = .ok .wbyte
    ∧ decode 0x14 = .ok (.rbyte false) ∧ decode 0x15 = .ok (.rbyte true)
    ∧ decode 0x20 = .ok .begin ∧ decode 0x21 = .ok .write ∧ decode 0x22 = .ok .read
    ∧ decode 0x23 = .ok .writeReg ∧ decode 0x24 = .ok .readReg

/-- 30_encoding.md R66 to R68: the decoder reads every operation from its code, and a code it accepts
is the code of the operation it reads. The numbers are the spec's own choice (D3). -/
def Obligations.DecodeInvertsEncode : Prop :=
  (∀ i : Instr, decode (encode i) = .ok i)
    ∧ ∀ (code : Byte) (i : Instr), decode code = .ok i → encode i = code

/-- 30_encoding.md R67: the level field of every code, the operation field telling the operations of
a level apart but for RBYTE's operand, and the operand in bit 0. The values are the spec's own (D3). -/
def Obligations.CodeFieldsNameLevelAndOperation : Prop :=
  (∀ i : Instr, levelField (encode i) = match i.level with | .p => 0b0000 | .s => 0b0001 | .c => 0b0010)
    ∧ (∀ i j : Instr, i.level = j.level → opField (encode i) = opField (encode j) → i = j)
    ∧ ∀ a : Bool, (encode (.rbyte a)).getLsbD 0 = a

/-- 30_encoding.md R71: exactly these codes are reserved, and a write of one to `CMD`, or of a level P
or level S code, is refused. The spec's own decision (D4); the refusals' names are the model's (log 12). -/
def Obligations.ReservedCodesRefused : Prop :=
  (∀ code : Byte, decode code = .error (.reserved code) ↔
      code = 0x00 ∨ (0x07 ≤ code ∧ code ≤ 0x0F) ∨ code = 0x13 ∨ (0x16 ≤ code ∧ code ≤ 0x1F) ∨ 0x25 ≤ code)
    ∧ (∀ (code : Byte) (s : State), s.busy = false → decode code = .error (.reserved code) →
        perform (.writeCmd code) s = .refused (.reservedCode code))
    ∧ ∀ (i : Instr) (s : State), s.busy = false → i.level ≠ .c →
        perform (.writeCmd (encode i)) s = .refused (.notHostIssuable (encode i))

/-- 30_encoding.md R61: the address byte, both forms, and its fields. The placement is the spec's own
decision (D12). -/
def Obligations.AddressByteLayout : Prop :=
  ∀ (a : DevAddr) (dir : Bool),
    addressByte a dir = a ++ BitVec.ofBool dir
      ∧ addressByte a dir = (a.setWidth 8 <<< 1) ||| (BitVec.ofBool dir).setWidth 8
      ∧ (addressByte a dir).extractLsb' 1 7 = a ∧ (addressByte a dir).getLsbD 0 = dir

/-! ## Line levels and pin primitives -/

/-- 20_memory.md R46: the level of a line, the spec's own assembly (D11). `float` stands for any value. -/
def Obligations.LineLevelIsWiredAnd : Prop :=
  ∀ (m : Drv) (p : PeerDrive) (pullup float : Bool),
    (m = .drivenLow ∨ p = .drivesLow → lineLevel m p pullup float = false)
      ∧ (m = .released ∧ p = .released ∧ pullup = true → lineLevel m p pullup float = true)
      ∧ (m = .released ∧ p = .released ∧ pullup = false → lineLevel m p pullup float = float)

/-- 40_pin_driver.md R81: SDA_LOW. -/
def Obligations.SdaLowDrivesData : Prop :=
  ∀ s : State,
    exec .sdaLow s = .next { s with sdaDrv := .drivenLow, trace := s.trace ++ [.sdaLow] }
      ∧ encode .sdaLow = 0x01
      ∧ (Event.isStart s.drivers .sdaLow = true ↔ s.sclDrv = .released ∧ s.sdaDrv = .released)
      ∧ ∀ (p : PeerDrive) (pullup float : Bool), lineLevel .drivenLow p pullup float = false

/-- 40_pin_driver.md R82: SDA_REL. -/
def Obligations.SdaRelReleasesData : Prop :=
  ∀ s : State,
    exec .sdaRel s = .next { s with sdaDrv := .released, trace := s.trace ++ [.sdaRel] }
      ∧ encode .sdaRel = 0x02
      ∧ (Event.isStop s.drivers .sdaRel = true ↔ s.sclDrv = .released ∧ s.sdaDrv = .drivenLow)
      ∧ ∀ (pullup float : Bool), lineLevel .released .drivesLow pullup float = false
          ∧ lineLevel .released .released true float = true
          ∧ lineLevel .released .released false float = float

/-- 40_pin_driver.md R83: SCL_LOW; after it the block may change SDA without making a marker. -/
def Obligations.SclLowDrivesClock : Prop :=
  ∀ s : State,
    exec .sclLow s = .next { s with sclDrv := .drivenLow, trace := s.trace ++ [.sclLow] }
      ∧ encode .sclLow = 0x03
      ∧ ∀ (d : Drv) (e : Event), e.isStart (d, .drivenLow) = false ∧ e.isStop (d, .drivenLow) = false

/-- 40_pin_driver.md R84: SCL_REL; the block goes on whatever the line does. -/
def Obligations.SclRelReleasesClock : Prop :=
  ∀ s : State,
    exec .sclRel s = .next { s with sclDrv := .released, trace := s.trace ++ [.sclRel] }
      ∧ encode .sclRel = 0x04 ∧ ∀ float : Bool, lineLevel .released .released true float = true

/-- 40_pin_driver.md R85: WAIT is an event, lasting at least `T_WAIT`, and changes no register. -/
def Obligations.WaitChangesNothing : Prop :=
  ∀ s : State,
    exec .wait s = .next { s with trace := s.trace ++ [.wait] }
      ∧ encode .wait = 0x06 ∧ Trace.minTime [.wait] = Config.tWait

/-- 40_pin_driver.md R86: SDA_SAMPLE. That the answer is delivered in `smp`, and that the environment is
a list and free values after it, is the model's own (log 6, 7, 9). -/
def Obligations.SampleReadsDataLine : Prop :=
  ∀ s : State,
    exec .sdaSample s = .next { s with smp := s.sdaLevel, peer := s.peer.tail, samples := s.samples + 1,
                                       trace := s.trace ++ [.sample s.sdaLevel] }
      ∧ encode .sdaSample = 0x05
      ∧ (s.sdaDrv = .drivenLow → s.sdaLevel = false)
      ∧ (s.peerAt 0 = .drivesLow → s.sdaLevel = false)
      ∧ (s.sdaDrv = .released → s.peerAt 0 = .released → s.params.pullup = true → s.sdaLevel = true)
      ∧ (s.sdaDrv = .released → s.peerAt 0 = .released → s.params.pullup = false →
          s.sdaLevel = Config.floatSda s.samples)

/-! ## Bus phases -/

/-- 41_bus_conditions.md R100: START, from every driver state. -/
def Obligations.StartMakesStartCondition : Prop :=
  ∀ s : State,
    exec .start s = .next { s with sdaDrv := .drivenLow, sclDrv := .drivenLow, txnOpen := true,
                                   trace := s.trace ++ [.sdaRel, .sclRel, .wait, .sdaLow, .wait, .sclLow, .wait] }
      ∧ encode .start = 0x10 ∧ Instr.start.hostIssuable = false
      ∧ ∀ d : Drivers,
          Trace.starts d startEvents = 1 ∧ Trace.waits startEvents = 3 ∧ startEvents.length = 7
            ∧ Trace.stops d startEvents = (if d = (.drivenLow, .released) then 1 else 0)

/-- 41_bus_conditions.md R101: STOP, from every driver state; the commands enter it with SCL low. -/
def Obligations.StopMakesStopCondition : Prop :=
  ∀ s : State,
    exec .stop s = .next { s with sdaDrv := .released, sclDrv := .released, txnOpen := false,
                                  trace := s.trace ++ [.sdaLow, .wait, .sclRel, .wait, .sdaRel, .wait] }
      ∧ encode .stop = 0x11 ∧ Instr.stop.hostIssuable = false
      ∧ (∀ d : Drivers,
          Trace.stops d stopEvents = 1 ∧ Trace.waits stopEvents = 3 ∧ stopEvents.length = 6
            ∧ Trace.starts d stopEvents = (if d = (.released, .released) then 1 else 0))
      ∧ ∀ p : Place, s.Inv → s.seq = .path p 0 → p.op s = .stop → s.drivers = (.released, .drivenLow)

/-- 42_byte_transfer.md R110: WBYTE of the byte in `SHR`, whole state, and its corner cases. That the byte
is the one in `SHR` is read from R68 (log 15); `smp`, `peer`, `samples` are the model's own (log 6, 9). -/
def Obligations.WbyteSendsByte : Prop :=
  ∀ s : State,
    exec .wbyte s = .next { s with sdaDrv := .released, sclDrv := .drivenLow, shr := 0x00, bitcnt := 8,
                                   ackf := !s.answer 0, smp := s.answer 0, peer := s.peer.tail,
                                   samples := s.samples + 1,
                                   trace := s.trace ++ wbyteEvents s.shr (s.answer 0) }
      ∧ encode .wbyte = 0x12 ∧ Instr.wbyte.hostIssuable = false
      ∧ (s.peerAt 0 = .released → s.params.pullup = true → (!s.answer 0) = false)
      ∧ (s.peerAt 0 = .drivesLow → (!s.answer 0) = true)
      ∧ ∀ (b : Byte) (v : Bool),
          (wbyteEvents b v).length = 55 ∧ Trace.waits (wbyteEvents b v) = 27
            ∧ Trace.samples (wbyteEvents b v) = 1
            ∧ ∀ d : Drv, Trace.starts (d, .drivenLow) (wbyteEvents b v) = 0
                ∧ Trace.stops (d, .drivenLow) (wbyteEvents b v) = 0

/-- 42_byte_transfer.md R111: RBYTE, whole state, and its corner cases; `smp`, `peer`, `samples` are the
model's own (log 6, 9). -/
def Obligations.RbyteReceivesByte : Prop :=
  ∀ (s : State) (a : Bool),
    exec (.rbyte a) s = .next { s with sdaDrv := .released, sclDrv := .drivenLow, shr := s.answerByte 0,
                                       bitcnt := 8, smp := s.answer 7, peer := s.peer.drop 8,
                                       samples := s.samples + 8,
                                       trace := s.trace ++ rbyteEvents (s.answerByte 0) a }
      ∧ encode (.rbyte a) = 0x14 ||| (BitVec.ofBool a).setWidth 8 ∧ (Instr.rbyte a).hostIssuable = false
      ∧ ((∀ k < 8, s.peerAt k = .released) → s.params.pullup = true → s.answerByte 0 = 0xFF)
      ∧ ((∀ k < 8, s.peerAt k = .drivesLow) → s.answerByte 0 = 0x00)
      ∧ ∀ b : Byte,
          (rbyteEvents b a).length = 63 ∧ Trace.waits (rbyteEvents b a) = 27
            ∧ Trace.samples (rbyteEvents b a) = 8
            ∧ ∀ d : Drv, Trace.starts (d, .drivenLow) (rbyteEvents b a) = 0
                ∧ Trace.stops (d, .drivenLow) (rbyteEvents b a) = 0

/-- 42_byte_transfer.md R113: the `k`-th sample is bit `7-k` of the byte received, and a byte whose
bits are the answers, bit 7 first, is received as it was sent. -/
def Obligations.ReceivedBitsAreTheSamples : Prop :=
  ∀ (s : State) (a : Bool), ∃ t, exec (.rbyte a) s = .next t
    ∧ (∀ k < 8, t.shr.getLsbD (7 - k) = s.answer k)
    ∧ ∀ b : Byte,
        (∀ k < 8, s.answer k
          = lineLevel (if b.getLsbD (7 - k) then .released else .drivenLow) .released true false) → t.shr = b

/-- 41_bus_conditions.md R102, R103: the phase table, for the first and the repeated START, WBYTE,
RBYTE and STOP, entered as the commands enter them. -/
def Obligations.PhaseTable : Prop :=
  ∀ s : State,
    (s.drivers = (.released, .released) → ∃ t, exec .start s = .next t
        ∧ phaseRow s t (.drivenLow, .drivenLow) 1 0 7 3)
      ∧ (s.drivers = (.released, .drivenLow) → s.txnOpen = true → ∃ t, exec .start s = .next t
          ∧ phaseRow s t (.drivenLow, .drivenLow) 1 0 7 3 ∧ t.txnOpen = true)
      ∧ (s.drivers = (.drivenLow, .drivenLow) ∨ s.drivers = (.released, .drivenLow) →
          ∃ t, exec .wbyte s = .next t ∧ phaseRow s t (.released, .drivenLow) 0 0 55 27)
      ∧ (s.drivers = (.released, .drivenLow) →
          ∀ a, ∃ t, exec (.rbyte a) s = .next t ∧ phaseRow s t (.released, .drivenLow) 0 0 63 27)
      ∧ (s.drivers = (.released, .drivenLow) →
          ∃ t, exec .stop s = .next t ∧ phaseRow s t (.released, .released) 0 1 6 3)

/-! ## Commands

A statement of a whole state gives `smp`, `peer`, `samples` too: the model's own fields (log 6, 9). -/

/-- 43_transfer_commands.md R120: BEGIN. The order of its two releases is the spec's own decision (D7;
log 16). -/
def Obligations.BeginReleasesBothLines : Prop :=
  ∀ s : State,
    exec .begin s = .next { s with sdaDrv := .released, sclDrv := .released, txnOpen := false,
                                   busy := false, seq := .idle, trace := s.trace ++ [.sdaRel, .sclRel] }
      ∧ encode .begin = 0x20
      ∧ ∀ d : Drivers, Trace.starts d [.sdaRel, .sclRel] = 0
          ∧ Trace.stops d [.sdaRel, .sclRel] = (if d = (.drivenLow, .released) then 1 else 0)

/-- 43_transfer_commands.md R121: WRITE with every byte acknowledged, whole state. -/
def Obligations.WriteAllAcknowledged : Prop :=
  ∀ s : State, (∀ k ≤ s.len.toNat, s.answer k = false) →
    exec .write s = .next
      { s with sdaDrv := .released, sclDrv := .released, txnOpen := false, busy := false, seq := .idle,
               ok := true, ackf := true, smp := false, shr := 0, bitcnt := 8, idx := s.len,
               peer := s.peer.drop (s.len.toNat + 1), samples := s.samples + (s.len.toNat + 1),
               trace := s.trace ++ (startEvents ++ ackedBytes s.writeBytes ++ stopEvents) }

/-- 43_transfer_commands.md R121 b: WRITE with its address byte not acknowledged, whole state. -/
def Obligations.WriteAddressNack : Prop :=
  ∀ s : State, s.answer 0 = true →
    exec .write s = .next
      { s with sdaDrv := .released, sclDrv := .released, txnOpen := false, busy := false, seq := .idle,
               ok := false, ackf := false, smp := true, shr := 0, bitcnt := 8,
               peer := s.peer.tail, samples := s.samples + 1,
               trace := s.trace ++ (startEvents ++ wbyteEvents s.addrWriteByte true ++ stopEvents) }

/-- 43_transfer_commands.md R121 c, d: WRITE with data byte `i` the first not acknowledged, whole
state: bytes 0 to `i` are on the wire and no other. -/
def Obligations.WriteDataNack : Prop :=
  ∀ (s : State) (i : Nat), i < s.len.toNat → (∀ k ≤ i, s.answer k = false) → s.answer (i + 1) = true →
    exec .write s = .next
      { s with sdaDrv := .released, sclDrv := .released, txnOpen := false, busy := false, seq := .idle,
               ok := false, ackf := false, smp := true, shr := 0, bitcnt := 8, idx := BitVec.ofNat 8 i,
               peer := s.peer.drop (i + 2), samples := s.samples + (i + 2),
               trace := s.trace ++ (startEvents ++ ackedBytes (s.writeBytes.take (i + 1))
                 ++ wbyteEvents (s.txByte i) true ++ stopEvents) }

/-- 43_transfer_commands.md R122: WRITE_REG with its three bytes acknowledged, whole state. -/
def Obligations.WriteRegAllAcknowledged : Prop :=
  ∀ s : State, (∀ k < 3, s.answer k = false) →
    exec .writeReg s = .next
      { s with sdaDrv := .released, sclDrv := .released, txnOpen := false, busy := false, seq := .idle,
               ok := true, ackf := true, smp := false, shr := 0, bitcnt := 8,
               peer := s.peer.drop 3, samples := s.samples + 3,
               trace := s.trace ++ (startEvents ++ ackedBytes [s.addrWriteByte, s.reg, s.val] ++ stopEvents) }

/-- 43_transfer_commands.md R122 b: WRITE_REG with byte `i` of its three the first not acknowledged. -/
def Obligations.WriteRegNack : Prop :=
  ∀ (s : State) (i : Nat) (b : Byte), [s.addrWriteByte, s.reg, s.val][i]? = some b →
    (∀ k < i, s.answer k = false) → s.answer i = true →
    exec .writeReg s = .next
      { s with sdaDrv := .released, sclDrv := .released, txnOpen := false, busy := false, seq := .idle,
               ok := false, ackf := false, smp := true, shr := 0, bitcnt := 8,
               peer := s.peer.drop (i + 1), samples := s.samples + (i + 1),
               trace := s.trace ++ (startEvents ++ ackedBytes ([s.addrWriteByte, s.reg, s.val].take i)
                 ++ wbyteEvents b true ++ stopEvents) }

/-- 30_encoding.md R73, 43_transfer_commands.md R122 a: WRITE_REG is WRITE of the two bytes `REG` and
`VAL`, whatever the environment answers; only the operands WRITE is given and its `IDX` differ. -/
def Obligations.WriteRegIsWriteOfTwoBytes : Prop :=
  ∀ (s : State) (m : Mem), Mem.read m 0 = s.reg → Mem.read m 1 = s.val →
    ∃ t, exec .write { s with len := 2, txbuf := m } = .next t
      ∧ exec .writeReg s = .next { t with len := s.len, txbuf := s.txbuf, idx := s.idx }

/-- 43_transfer_commands.md R123: READ past its address phase (acknowledged, or policy `legacy`),
whole state, for every `LEN`, 0 among them. -/
def Obligations.ReadReceivesBytes : Prop :=
  ∀ s : State, (s.answer 0 = false ∨ s.params.policy = .legacy) →
    exec .read s = .next
      { s with sdaDrv := .released, sclDrv := .released, txnOpen := false, busy := false, seq := .idle,
               ok := true, ackf := !s.answer 0, smp := s.answer (8 * s.len.toNat),
               shr := if s.len = 0 then 0 else s.readByte (s.len.toNat - 1), bitcnt := 8, idx := s.len,
               rxbuf := s.rxFilled s.len.toNat,
               peer := s.peer.drop (8 * s.len.toNat + 1), samples := s.samples + (8 * s.len.toNat + 1),
               trace := s.trace ++ (startEvents ++ wbyteEvents s.addrReadByte (s.answer 0)
                 ++ s.readEvents ++ stopEvents) }

/-- 43_transfer_commands.md R123: READ with its address byte not acknowledged under policy `abort`,
whole state: nothing is read. -/
def Obligations.ReadAddressNackAborts : Prop :=
  ∀ s : State, s.answer 0 = true → s.params.policy = .abort →
    exec .read s = .next
      { s with sdaDrv := .released, sclDrv := .released, txnOpen := false, busy := false, seq := .idle,
               ok := false, ackf := false, smp := true, shr := 0, bitcnt := 8,
               peer := s.peer.tail, samples := s.samples + 1,
               trace := s.trace ++ (startEvents ++ wbyteEvents s.addrReadByte true ++ stopEvents) }

/-- 10_state.md R22, 43_transfer_commands.md R123 e: cell by cell, what READ leaves in `RXBUF`. -/
def Obligations.ReadFillsReceiveBuffer : Prop :=
  ∀ s : State, Mem.wf s.rxbuf = true → (s.answer 0 = false ∨ s.params.policy = .legacy) →
    ∃ t, exec .read s = .next t ∧ Mem.wf t.rxbuf = true
      ∧ (∀ i < s.len.toNat, Mem.read t.rxbuf i = s.readByte i)
      ∧ ∀ i, s.len.toNat ≤ i → Mem.read t.rxbuf i = Mem.read s.rxbuf i

/-- 43_transfer_commands.md R124: READ_REG with all three sent bytes acknowledged, whole state. -/
def Obligations.ReadRegAllAcknowledged : Prop :=
  ∀ s : State, (∀ k < 3, s.answer k = false) →
    exec .readReg s = .next
      { s with sdaDrv := .released, sclDrv := .released, txnOpen := false, busy := false, seq := .idle,
               ok := true, ackf := true, smp := s.answer 10, shr := s.answerByte 3, bitcnt := 8,
               val := s.answerByte 3, peer := s.peer.drop 11, samples := s.samples + 11,
               trace := s.trace ++ (startEvents ++ ackedBytes [s.addrWriteByte, s.reg] ++ startEvents
                 ++ ackedBytes [s.addrReadByte] ++ rbyteEvents (s.answerByte 3) false ++ stopEvents) }

/-- 43_transfer_commands.md R124 b, c: READ_REG with one of its three sent bytes not acknowledged,
whole state; `VAL` is unchanged, and there is a repeated start only before the third. -/
def Obligations.ReadRegNack : Prop :=
  ∀ (s : State) (i : Nat) (ev : List Event),
    [startEvents ++ wbyteEvents s.addrWriteByte true,
      startEvents ++ ackedBytes [s.addrWriteByte] ++ wbyteEvents s.reg true,
      startEvents ++ ackedBytes [s.addrWriteByte, s.reg] ++ startEvents
        ++ wbyteEvents s.addrReadByte true][i]? = some ev →
    (∀ k < i, s.answer k = false) → s.answer i = true →
    exec .readReg s = .next
      { s with sdaDrv := .released, sclDrv := .released, txnOpen := false, busy := false, seq := .idle,
               ok := false, ackf := false, smp := true, shr := 0, bitcnt := 8,
               peer := s.peer.drop (i + 1), samples := s.samples + (i + 1),
               trace := s.trace ++ (ev ++ stopEvents) }

/-- 20_memory.md R55, 70_reset_and_hazards.md R181: every operation completes in every state, whatever
the environment answers, and a command leaves the block idle with both lines released. -/
def Obligations.EveryOperationCompletes : Prop :=
  (∀ (i : Instr) (s : State), ∃ t, exec i s = .next t)
    ∧ ∀ (c : Command) (s : State), ∃ t, exec c.instr s = .next t
        ∧ t.drivers = (.released, .released) ∧ t.txnOpen = false ∧ t.busy = false ∧ t.seq = .idle

/-- 60_exceptions.md R142: which bytes' nack makes a command fail, and that no other does. -/
def Obligations.NackRaisedOn : Prop :=
  ∀ s : State,
    (∃ t, exec .begin s = .next t ∧ t.ok = s.ok)
      ∧ (∃ t, exec .write s = .next t ∧ (t.ok = false ↔ ∃ k ≤ s.len.toNat, s.answer k = true))
      ∧ (∃ t, exec .writeReg s = .next t ∧ (t.ok = false ↔ ∃ k < 3, s.answer k = true))
      ∧ (∃ t, exec .read s = .next t ∧ (t.ok = false ↔ s.params.policy = .abort ∧ s.answer 0 = true))
      ∧ (∃ t, exec .readReg s = .next t ∧ (t.ok = false ↔ ∃ k < 3, s.answer k = true))

/-- 60_exceptions.md R141: a command that failed ended right after the failing sample and the STOP,
and what it changed and left. -/
def Obligations.NackEntryIsPrecise : Prop :=
  ∀ (c : Command) (s t : State), c ≠ .begin → exec c.instr s = .next t → t.ok = false →
    t.ackf = false ∧ t.drivers = (.released, .released) ∧ t.txnOpen = false ∧ t.busy = false
      ∧ t.seq = .idle ∧ t.addr = s.addr ∧ t.len = s.len ∧ t.reg = s.reg ∧ t.val = s.val
      ∧ t.txbuf = s.txbuf ∧ t.rxbuf = s.rxbuf
      ∧ ∃ pre, t.trace = s.trace ++ pre ++ [.sample true, .sclLow, .wait] ++ stopEvents

/-- 43_transfer_commands.md R126: the events and waits of every command and outcome. -/
def Obligations.CommandLengths : Prop :=
  ∀ s : State,
    (∃ t, exec .begin s = .next t ∧ emits s t 2 0)
      ∧ ((∀ k ≤ s.len.toNat, s.answer k = false) →
          ∃ t, exec .write s = .next t ∧ emits s t (68 + 55 * s.len.toNat) (33 + 27 * s.len.toNat))
      ∧ (s.answer 0 = true → ∃ t, exec .write s = .next t ∧ emits s t 68 33)
      ∧ (∀ i < s.len.toNat, (∀ k ≤ i, s.answer k = false) → s.answer (i + 1) = true →
          ∃ t, exec .write s = .next t ∧ emits s t (123 + 55 * i) (60 + 27 * i))
      ∧ ((∀ k < 3, s.answer k = false) → ∃ t, exec .writeReg s = .next t ∧ emits s t 178 87)
      ∧ (s.answer 0 = true → ∃ t, exec .writeReg s = .next t ∧ emits s t 68 33)
      ∧ (s.answer 0 = false → s.answer 1 = true → ∃ t, exec .writeReg s = .next t ∧ emits s t 123 60)
      ∧ (s.answer 0 = false → s.answer 1 = false → s.answer 2 = true →
          ∃ t, exec .writeReg s = .next t ∧ emits s t 178 87)
      ∧ (s.answer 0 = false ∨ s.params.policy = .legacy →
          ∃ t, exec .read s = .next t ∧ emits s t (68 + 63 * s.len.toNat) (33 + 27 * s.len.toNat))
      ∧ (s.answer 0 = true → s.params.policy = .abort → ∃ t, exec .read s = .next t ∧ emits s t 68 33)
      ∧ ((∀ k < 3, s.answer k = false) → ∃ t, exec .readReg s = .next t ∧ emits s t 248 117)
      ∧ (s.answer 0 = true → ∃ t, exec .readReg s = .next t ∧ emits s t 68 33)
      ∧ (s.answer 0 = false → s.answer 1 = true → ∃ t, exec .readReg s = .next t ∧ emits s t 123 60)
      ∧ (s.answer 0 = false → s.answer 1 = false → s.answer 2 = true →
          ∃ t, exec .readReg s = .next t ∧ emits s t 185 90)

/-- 43_transfer_commands.md R125, 90_conflicts.md C4: from an idle bus every transfer command makes
exactly one stop marker, its last SDA event, on every path, and one start marker, but for READ_REG
past its pointer, which makes two. -/
def Obligations.OneStopPerTransaction : Prop :=
  ∀ (c : Command) (s : State), c ≠ .begin → s.drivers = (.released, .released) →
    ∃ t ev, exec c.instr s = .next t ∧ t.trace = s.trace ++ ev ++ [.sdaRel, .wait]
      ∧ Trace.stops s.drivers ev = 0 ∧ Trace.stops s.drivers (ev ++ [.sdaRel, .wait]) = 1
      ∧ Trace.starts s.drivers (ev ++ [.sdaRel, .wait])
          = (if c = .readReg ∧ s.answer 0 = false ∧ s.answer 1 = false then 2 else 1)

/-- 40_pin_driver.md R87: in the trace of a command two driver events of one line are adjacent only
where an RBYTE's closing release meets the next RBYTE or STOP, with SCL low, so BEGIN, WRITE and
WRITE_REG have no such pair; and every driver event is followed directly by a WAIT but the releases of
BEGIN, the release that opens a START and the release that closes an RBYTE. -/
def Obligations.AdjacentDriverEvents : Prop :=
  ∀ (c : Command) (s : State), ∃ t ev, exec c.instr s = .next t ∧ t.trace = s.trace ++ ev
    ∧ Trace.adjacentOk s.drivers ev = true
    ∧ (c = .begin ∨ c = .write ∨ c = .writeReg → ∀ k, ¬ Trace.pairAt ev k)
    ∧ (∀ k, Trace.pairAt ev k → Trace.rbyteEndsAt ev k)
    ∧ ∀ k, Trace.noWaitAfter ev k → c = .begin ∨ Trace.startOpensAt ev k ∨ Trace.rbyteEndsAt ev k

/-- 10_state.md R29: what each operation leaves unchanged, for all 15. -/
def Obligations.OperationsWriteOnlyTheirState : Prop :=
  ∀ (i : Instr) (s t : State), exec i s = .next t →
    t.addr = s.addr ∧ t.len = s.len ∧ t.reg = s.reg ∧ t.txbuf = s.txbuf ∧ t.cmd = s.cmd
      ∧ t.rdata = s.rdata ∧ t.host = s.host ∧ t.params = s.params
      ∧ (i ≠ .readReg → t.val = s.val)
      ∧ (i ≠ .read → t.rxbuf = s.rxbuf)
      ∧ (i ≠ .write → i ≠ .read → t.idx = s.idx)
      ∧ (i.level ≠ .c ∨ i = .begin → t.ok = s.ok)
      ∧ (i ≠ .wbyte → i.level ≠ .c ∨ i = .begin → t.ackf = s.ackf)
      ∧ (i.level = .p ∨ i = .start ∨ i = .stop ∨ i = .begin → t.shr = s.shr ∧ t.bitcnt = s.bitcnt)
      ∧ (i.level = .p ∨ i = .wbyte ∨ i = .rbyte true ∨ i = .rbyte false → t.txnOpen = s.txnOpen)
      ∧ (i = .sclLow ∨ i = .sclRel ∨ i = .sdaSample ∨ i = .wait → t.sdaDrv = s.sdaDrv)
      ∧ (i = .sdaLow ∨ i = .sdaRel ∨ i = .sdaSample ∨ i = .wait → t.sclDrv = s.sclDrv)
      ∧ (i.level ≠ .c → t.busy = s.busy ∧ t.seq = s.seq)

/-- 10_state.md R28: a transfer command reads no register whose reset value is unspecified before it
writes it. The drivers, `SHR`, `BITCNT`, `ACKF`, `OK` (and `TXN_OPEN`, R18; and the model's `smp`,
log 9), which every path writes, make no difference to what it leaves. `IDX` before WRITE or READ,
`VAL` before READ_REG and `RXBUF` before READ, which some paths do not write or write in part, make
none but to the value that stands where the command has not written. -/
def Obligations.TransfersReadNoUnspecifiedRegister : Prop :=
  (∀ (c : Command) (s : State) (a b : Drv) (x : Byte) (n : BitVec 4) (f g h v : Bool), c ≠ .begin →
    exec c.instr { s with sdaDrv := a, sclDrv := b, shr := x, bitcnt := n, ackf := f, ok := g,
                          txnOpen := h, smp := v } = exec c.instr s)
    ∧ (∀ (c : Command) (s : State) (n : Count), c = .write ∨ c = .read →
        ∃ t, exec c.instr s = .next t
          ∧ exec c.instr { s with idx := n } = .next { t with
              idx := if s.answer 0 = false ∨ (c = .read ∧ s.params.policy = .legacy) then t.idx else n })
    ∧ (∀ (s : State) (v : Byte), ∃ t, exec .readReg s = .next t
        ∧ exec .readReg { s with val := v } = .next { t with val := if t.ok then t.val else v })
    ∧ ∀ (s : State) (m : Mem), Mem.wf s.rxbuf = true → Mem.wf m = true →
        ∃ t m', exec .read s = .next t ∧ exec .read { s with rxbuf := m } = .next { t with rxbuf := m' }
          ∧ ∀ i, Mem.read m' i
              = (if t.ok = true ∧ i < s.len.toNat then Mem.read t.rxbuf i else Mem.read m i)

/-! ## The wire -/

/-- 30_encoding.md R60 to R65: what a monitor on an idle bus reads of an acknowledged transfer: a
start, the address byte, the data bytes, each most significant bit first with its acknowledge slot,
the repeated start of READ_REG, every byte received but the last acknowledged, and a stop. The monitor
takes the level of a bit the block drives from the block's driver: a bus on which no one drives against
the block, the model's choice (log 19, DESIGN CHOICE). -/
def Obligations.WireCarriesTheTransfer : Prop :=
  ∀ s : State, s.drivers = (.released, .released) →
    ((∀ k ≤ s.len.toNat, s.answer k = false) → ∃ t ev, exec .write s = .next t ∧ t.trace = s.trace ++ ev
        ∧ wireSymbols ev = [.start] ++ groupSymbols (s.writeBytes.map (fun b => (b, true))) ++ [.stop])
      ∧ ((∀ k < 3, s.answer k = false) → ∃ t ev, exec .writeReg s = .next t ∧ t.trace = s.trace ++ ev
          ∧ wireSymbols ev = [.start]
              ++ groupSymbols [(s.addrWriteByte, true), (s.reg, true), (s.val, true)] ++ [.stop])
      ∧ (s.answer 0 = false → ∃ t ev, exec .read s = .next t ∧ t.trace = s.trace ++ ev
          ∧ wireSymbols ev = [.start] ++ groupSymbols ((s.addrReadByte, true)
              :: (List.range s.len.toNat).map (fun i => (s.readByte i, decide (i + 1 < s.len.toNat))))
              ++ [.stop])
      ∧ ((∀ k < 3, s.answer k = false) → ∃ t ev, exec .readReg s = .next t ∧ t.trace = s.trace ++ ev
          ∧ wireSymbols ev = [.start] ++ groupSymbols [(s.addrWriteByte, true), (s.reg, true)]
              ++ [.start] ++ groupSymbols [(s.addrReadByte, true), (t.val, false)] ++ [.stop])

/-- 30_encoding.md R60: on every path, whatever is acknowledged, what a transfer command puts on an
idle bus is one transaction of the grammar: a start, an address byte of `ADDR` and data bytes, in
READ_REG alone perhaps a repeated start with another address byte of `ADDR` and data bytes, a stop. The
address byte and its direction bit are R61 and R62, the spec's own decision (D12); the monitor is that
of a bus on which no one drives against the block, the model's choice (log 19, DESIGN CHOICE). -/
def Obligations.EveryTransferIsOneTransaction : Prop :=
  ∀ (c : Command) (s : State), c ≠ .begin → s.drivers = (.released, .released) →
    ∃ t ev, exec c.instr s = .next t ∧ t.trace = s.trace ++ ev
      ∧ ∃ (ack : Bool) (data : List (Byte × Bool)) (again : List (List (Byte × Bool))),
          wireSymbols ev = [.start] ++ groupSymbols ((addressByte s.addr (decide (c = .read)), ack) :: data)
              ++ again.flatMap (fun g => [.start] ++ groupSymbols g) ++ [.stop]
            ∧ again.length ≤ (if c = .readReg then 1 else 0)
            ∧ ∀ g ∈ again, ∃ (ack' : Bool) (data' : List (Byte × Bool)),
                g = (addressByte s.addr true, ack') :: data'

/-! ## The host -/

/-- 10_state.md R20, R21, 30_encoding.md R69: a host write of an operand register or of `TXBUF` while
no command runs. The fault past the last cell is the model's own (log 18). -/
def Obligations.HostWritesOperands : Prop :=
  ∀ s : State, s.busy = false →
    (∀ v, perform (.writeAddr v) s = .next { s with addr := v })
      ∧ (∀ v, perform (.writeLen v) s = .next { s with len := v })
      ∧ (∀ v, perform (.writeReg v) s = .next { s with reg := v })
      ∧ (∀ v, perform (.writeVal v) s = .next { s with val := v })
      ∧ (∀ (i : Nat) (v : Byte), i < 255 → Mem.wf s.txbuf = true →
          ∃ t, perform (.writeTx i v) s = .next t ∧ { t with txbuf := s.txbuf } = s
            ∧ Mem.wf t.txbuf = true ∧ t.txByte i = v ∧ ∀ j, j ≠ i → t.txByte j = s.txByte j)
      ∧ ∀ (i : Nat) (v : Byte), 255 ≤ i → perform (.writeTx i v) s = .fault (.noSuchCell i)

/-- 10_state.md R23: `STATUS` bit by bit, a view; a write of it is ignored; a write of a command's code
to `CMD` issues it; `CMD` reads back as last written; host reads change nothing of the block. That
the reads and the write of `STATUS` are allowed and act so also while `BUSY` = 1 is an inference
(log 11, DEDUCED). `rdata` and the fault past the last cell are the model's own (log 18, 21). -/
def Obligations.CommandAndStatusRegisters : Prop :=
  ∀ s : State,
    (s.status.getLsbD 0 = s.busy ∧ s.status.getLsbD 1 = s.ok ∧ s.status.getLsbD 2 = s.ackf
        ∧ s.status.getLsbD 3 = s.txnOpen ∧ s.status.getLsbD 4 = decide (s.sdaDrv = .released)
        ∧ s.status.getLsbD 5 = decide (s.sclDrv = .released)
        ∧ s.status.getLsbD 6 = false ∧ s.status.getLsbD 7 = false)
      ∧ (∀ v, perform (.writeStatus v) s = .next s)
      ∧ (∀ c : Command, s.busy = false →
          perform (.writeCmd (encode c.instr)) s
            = .next { s with cmd := encode c.instr, busy := true, seq := .op (encode c.instr) })
      ∧ perform (.read .status) s = .next { s with rdata := s.status }
      ∧ perform (.read .cmd) s = .next { s with rdata := s.cmd }
      ∧ perform (.read .val) s = .next { s with rdata := s.val }
      ∧ (∀ i < 255, perform (.read (.rx i)) s = .next { s with rdata := Mem.read s.rxbuf i })
      ∧ ∀ i, 255 ≤ i → perform (.read (.rx i)) s = .fault (.noSuchCell i)

/-- 70_reset_and_hazards.md R170: while `BUSY` = 1 a write of `CMD`, an operand register or `TXBUF` is
refused, also as the machine's next step when it comes from an interrupt handler. The refusal is the
spec's own decision (D17; log 11). -/
def Obligations.ReentrantWritesRefused : Prop :=
  ∀ (s : State) (code v : Byte) (a : DevAddr) (n : Count) (i : Nat), s.busy = true →
    ∀ acc ∈ [HostAccess.writeCmd code, .writeAddr a, .writeLen n, .writeReg v, .writeVal v, .writeTx i v],
      perform acc s = .refused .reentrantAccess
        ∧ ∀ rest, s.seq ≠ .idle → s.host = ⟨true, acc⟩ :: rest → step s = .refused .reentrantAccess

/-- 70_reset_and_hazards.md R171: host code that drives a pin itself is refused: no rule of the spec
holds of it. The refusal is the model's choice (log 14). -/
def Obligations.ForeignPinAccessRefused : Prop :=
  ∀ (s : State) (l : Line) (low : Bool), perform (.drivePin l low) s = .refused .pinsNotExclusive

/-! ## Reset and the step -/

/-- 70_reset_and_hazards.md R160, 10_state.md R28: the values the spec gives for reset, and that the
block does nothing until the host issues a command. The parameters' defaults are 00_scope.md R6's; that
they stand in State, and the grain among them, are the model's own (log 1, 2), and so is the host's list
(log 10). The other registers' reset values are the model's own (log 4, 5) and nothing is stated of
them. -/
def Obligations.ResetIsIdle : Prop :=
  State.reset.busy = false ∧ State.reset.seq = .idle ∧ State.reset.txnOpen = false
    ∧ State.reset.trace = [] ∧ State.reset.params = Params.default
    ∧ ∀ s : State, s.seq = .idle → s.host = [] → step s = .next s

/-- A step runs the operation at the head of `SEQ`, decoded: it is `exec` of it, and no command is
running afterwards. It does so for a whole operation where the grain is one operation per step, and
for a level P or S operation always; a command in the other grain begins with its first primitive. The
two step sizes and the running of a single operation are the model's own (log 2, 13), and the refusal
of a reserved code that stands in `SEQ`, which no write of `CMD` can put there, is an inference (log 12,
DEDUCED). -/
def Obligations.StepRunsTheDecodedOperation : Prop :=
  (∀ (s t : State) (code : Byte) (i : Instr), s.seq = .op code → decode code = .ok i → s.noReentry →
      (s.params.grain = .operation ∨ i.command? = none) → exec i s = .next t →
      step s = .next { t with busy := false, seq := .idle })
    ∧ (∀ (s : State) (nbits w : Nat) (i : Instr), decodeTableWord nbits w = some i →
        ∃ t, exec i (s.withFetchWord nbits w) = .next t
          ∧ step (s.withFetchWord nbits w) = .next { t with busy := false, seq := .idle })
    ∧ (∀ (s : State) (c : Command), s.seq = .op (encode c.instr) → s.noReentry →
        s.params.grain = .primitive → step s = .next (tick (firstPlace c) 0 s))
    ∧ ∀ (s : State) (code : Byte), s.seq = .op code → s.noReentry → decode code = .error (.reserved code) →
        step s = .refused (.reservedCode code)

/-- 40_pin_driver.md R80, 20_memory.md R51: inside a command one step is one pin primitive, the one
`SEQ` names, and emits exactly its event. Where `SEQ` stands between primitives is the model's own
(log 20, 22). -/
def Obligations.OneStepIsOnePrimitive : Prop :=
  ∀ (s : State) (p : Place) (k : Nat), s.Inv → s.seq = .path p k → s.noReentry →
    (nextPrim p k s).level = .p
      ∧ ∃ t u e, step s = .next t ∧ exec (nextPrim p k s) (entered p k s) = .next u
          ∧ u.trace = s.trace ++ [e] ∧ t.trace = s.trace ++ [e] ∧ t.drivers = u.drivers
          ∧ t.drivers = e.drivers s.drivers

/-- 30_encoding.md R69: the host writes `CMD`, the block runs the command to its end: two steps. The
host's list and the step size are the model's own (log 2, 10). -/
def Obligations.IssueRunsTheCommand : Prop :=
  ∀ (s : State) (c : Command) (r : Bool) (rest : List HostEvent), s.seq = .idle → s.busy = false →
    s.host = ⟨r, .writeCmd (encode c.instr)⟩ :: rest → s.params.grain = .operation →
    ({ s with host := rest } : State).noReentry →
    ∃ t, exec c.instr { s with host := rest, cmd := encode c.instr } = .next t
      ∧ Host.Core.run Sys2Proof.core 2 s = .next t

/-- 20_memory.md R51 a, c: a step only appends to the trace, and changes no parameter. -/
def Obligations.StepsOnlyAppendEvents : Prop :=
  ∀ s t : State, step s = .next t → (∃ ev, t.trace = s.trace ++ ev) ∧ t.params = s.params

/-! ## Invariants and refinement -/

/-- The invariant holds after reset. It rests on the reset values the spec gives, and on `BITCNT` and
the buffers, whose reset values are the model's own (log 4, 5). -/
def Obligations.ResetMeetsInvariant : Prop := State.reset.Inv

/-- Every step keeps the invariant: `TXN_OPEN` = 0 and `BUSY` = 0 whenever no command runs, the buffers
canonical, `BITCNT` 0 to 8, `IDX < LEN` in the byte loops, the drivers and `TXN_OPEN` where the
position says (10_state.md R15, R18, R19, R24, R25, 41_bus_conditions.md R103). -/
def Obligations.StepKeepsInvariant : Prop :=
  ∀ s t : State, s.Inv → step s = .next t → t.Inv

/-- 41_bus_conditions.md R103: between commands the drivers are `(R, R)` once BEGIN or any transfer
command has run: a command leaves them so, and every step keeps it. -/
def Obligations.BusStaysSettled : Prop :=
  (∀ (c : Command) (s t : State), exec c.instr s = .next t → t.busSettled)
    ∧ ∀ s t : State, s.Inv → s.busSettled → step s = .next t → t.busSettled

/-- 20_memory.md R47, 40_pin_driver.md R86: the block samples SDA only while both drivers are released. -/
def Obligations.SamplesOnlyReleasedLines : Prop :=
  ∀ (s : State) (p : Place) (k : Nat), s.Inv → s.seq = .path p k → nextPrim p k s = .sdaSample →
    s.drivers = (.released, .released)

/-- 70_reset_and_hazards.md R178: SDA changes while SCL is released in exactly two places, the SDA_LOW
of START and the closing SDA_REL of STOP, once BEGIN or any transfer command has run (R161). -/
def Obligations.DataChangesOnlyWhileClockLow : Prop :=
  ∀ (s t : State) (p : Place) (k : Nat), s.Inv → s.busSettled → s.noReentry → s.seq = .path p k →
    step s = .next t →
    ((s.sclDrv = .released ∧ t.sdaDrv ≠ s.sdaDrv) ↔
      (p.op s = .start ∧ k = 3) ∨ (p.op s = .stop ∧ k = 4))

/-- 10_state.md R24: the two forms of a command are equivalent: run one primitive a step from its
issue, in as many steps as it has events, it comes to the state that the one function gives. The
model's two step sizes are log 2, its sequencer positions log 20 and 22. -/
def Obligations.SequencerRefinesCommands : Prop :=
  ∀ (c : Command) (s : State), s.seq = .op (encode c.instr) → s.params.grain = .primitive → s.noReentry →
    ∃ t, exec c.instr s = .next t
      ∧ Host.Core.run Sys2Proof.core (t.trace.length - s.trace.length) s = .next t
end

