-- ==== Sys2Proof/Laws/Memory.lean ====
section
/-! SUPPORT. The laws of the buffers: a read after a write, and the canonical form every write keeps. -/

namespace Sys2Proof.Machine

/-- Nothing below its lower bound is listed in a canonical buffer. -/
theorem Mem.read_below {m : Mem} {lo i : Nat} (h : Mem.wfFrom lo m = true) (hi : i < lo) :
    Mem.read m i = unlistedByte := by
  induction m generalizing lo with
  | nil => rfl
  | cons c rest ih =>
    obtain ⟨a, b⟩ := c
    simp only [Mem.wfFrom, Bool.and_eq_true, decide_eq_true_eq] at h
    obtain ⟨⟨⟨hlo, -⟩, -⟩, hrest⟩ := h
    have hne : ¬ a = i := by omega
    simpa only [Mem.read, if_neg hne] using ih hrest (by omega)

/-- The lower bound of a canonical buffer may be lowered. -/
theorem Mem.wfFrom_mono {m : Mem} {lo lo' : Nat} (h : Mem.wfFrom lo m = true) (hle : lo' ≤ lo) :
    Mem.wfFrom lo' m = true := by
  cases m with
  | nil => rfl
  | cons c rest =>
    obtain ⟨a, b⟩ := c
    simp only [Mem.wfFrom, Bool.and_eq_true, decide_eq_true_eq] at h ⊢
    obtain ⟨⟨⟨hlo, hcell⟩, hb⟩, hrest⟩ := h
    exact ⟨⟨⟨by omega, hcell⟩, hb⟩, hrest⟩

/-- A write keeps the canonical form, from any lower bound at or below the written index. -/
theorem Mem.write_wfFrom {m : Mem} {lo i : Nat} {v : Byte} (h : Mem.wfFrom lo m = true)
    (hlo : lo ≤ i) (hi : cellExists i = true) : Mem.wfFrom lo (Mem.write m i v) = true := by
  induction m generalizing lo with
  | nil =>
    unfold Mem.write
    split
    · rfl
    · simp_all [Mem.wfFrom]
  | cons c rest ih =>
    obtain ⟨a, b⟩ := c
    have hall := h
    simp only [Mem.wfFrom, Bool.and_eq_true, decide_eq_true_eq] at h
    obtain ⟨⟨⟨hla, hcell⟩, hb⟩, hrest⟩ := h
    unfold Mem.write
    split
    · split
      · exact hall
      · simp only [Mem.wfFrom, Bool.and_eq_true, decide_eq_true_eq]
        exact ⟨⟨⟨hlo, hi⟩, ‹_›⟩, ⟨⟨by omega, hcell⟩, hb⟩, hrest⟩
    · split
      · subst_vars
        split
        · exact Mem.wfFrom_mono hrest (by omega)
        · simp only [Mem.wfFrom, Bool.and_eq_true, decide_eq_true_eq]
          exact ⟨⟨⟨hla, hi⟩, ‹_›⟩, hrest⟩
      · simp only [Mem.wfFrom, Bool.and_eq_true, decide_eq_true_eq]
        exact ⟨⟨⟨hla, hcell⟩, hb⟩, ih hrest (by omega)⟩

/-- A write to a cell that exists keeps the canonical form. -/
theorem Mem.write_wf {m : Mem} {i : Nat} {v : Byte} (h : Mem.wf m = true) (hi : cellExists i = true) :
    Mem.wf (Mem.write m i v) = true :=
  Mem.write_wfFrom h (Nat.zero_le i) hi

/-- A read of the written cell of a canonical buffer gives what was written. -/
theorem Mem.read_write_same {m : Mem} {lo i : Nat} {v : Byte} (h : Mem.wfFrom lo m = true) :
    Mem.read (Mem.write m i v) i = v := by
  induction m generalizing lo with
  | nil =>
    unfold Mem.write
    split
    · simp_all [Mem.read]
    · simp [Mem.read]
  | cons c rest ih =>
    obtain ⟨a, b⟩ := c
    have hall := h
    simp only [Mem.wfFrom, Bool.and_eq_true, decide_eq_true_eq] at h
    obtain ⟨⟨⟨hla, hcell⟩, hb⟩, hrest⟩ := h
    unfold Mem.write
    split
    · split
      · rw [Mem.read, if_neg (by omega), Mem.read_below hrest (by omega)]
        exact Eq.symm ‹_›
      · simp [Mem.read]
    · split
      · subst_vars
        split
        · rw [Mem.read_below hrest (by omega)]
          exact Eq.symm ‹_›
        · simp [Mem.read]
      · rw [Mem.read, if_neg (by omega)]
        exact ih hrest

/-- A write leaves every other cell as it was. -/
theorem Mem.read_write_other (m : Mem) {i j : Nat} (v : Byte) (hij : j ≠ i) :
    Mem.read (Mem.write m i v) j = Mem.read m j := by
  induction m with
  | nil =>
    unfold Mem.write
    split <;> simp [Mem.read, Ne.symm hij]
  | cons c rest ih =>
    obtain ⟨a, b⟩ := c
    unfold Mem.write
    split
    · split <;> simp [Mem.read, Ne.symm hij]
    · split
      · subst_vars
        split <;> simp [Mem.read, Ne.symm hij]
      · simp only [Mem.read, ih]

/-- Canonical buffers that read alike are equal data. -/
theorem Mem.ext_of_wf {m n : Mem} {lo : Nat} (hm : Mem.wfFrom lo m = true)
    (hn : Mem.wfFrom lo n = true) (h : ∀ i, Mem.read m i = Mem.read n i) : m = n := by
  induction m generalizing n lo with
  | nil =>
    cases n with
    | nil => rfl
    | cons c rest =>
      obtain ⟨a, b⟩ := c
      simp only [Mem.wfFrom, Bool.and_eq_true, decide_eq_true_eq] at hn
      have := h a
      simp only [Mem.read, if_true] at this
      exact absurd this.symm hn.1.2
  | cons c rest ih =>
    obtain ⟨a, b⟩ := c
    have hm' := hm
    simp only [Mem.wfFrom, Bool.and_eq_true, decide_eq_true_eq] at hm
    cases n with
    | nil =>
      have := h a
      simp only [Mem.read, if_true] at this
      exact absurd this hm.1.2
    | cons d rest' =>
      obtain ⟨a', b'⟩ := d
      have hn' := hn
      simp only [Mem.wfFrom, Bool.and_eq_true, decide_eq_true_eq] at hn
      have haa : a = a' := by
        rcases Nat.lt_trichotomy a a' with hlt | heq | hgt
        · have := h a
          rw [Mem.read, if_pos rfl, Mem.read, if_neg (by omega), Mem.read_below hn.2 (by omega)] at this
          exact absurd this hm.1.2
        · exact heq
        · have := h a'
          rw [Mem.read, if_neg (by omega), Mem.read_below hm.2 (by omega), Mem.read, if_pos rfl] at this
          exact absurd this.symm hn.1.2
      subst haa
      have hbb : b = b' := by simpa [Mem.read] using h a
      subst hbb
      have hrest : ∀ i, Mem.read rest i = Mem.read rest' i := by
        intro i
        by_cases hia : a = i
        · subst hia
          rw [Mem.read_below hm.2 (by omega), Mem.read_below hn.2 (by omega)]
        · simpa [Mem.read, hia] using h i
      rw [ih hm.2 hn.2 hrest]

end Sys2Proof.Machine
end

