-- ==== Sys2Proof/Laws/State.lean ====
section
/-! SUPPORT. One lemma per field per register write of Ops.lean, so that no proof unfolds one. -/

namespace Sys2Proof.Machine

variable (s : State)

/-! ### emit -/

@[simp] theorem State.emit_sdaDrv (e : Event) : (s.emit e).sdaDrv = s.sdaDrv := rfl
@[simp] theorem State.emit_sclDrv (e : Event) : (s.emit e).sclDrv = s.sclDrv := rfl
@[simp] theorem State.emit_shr (e : Event) : (s.emit e).shr = s.shr := rfl
@[simp] theorem State.emit_bitcnt (e : Event) : (s.emit e).bitcnt = s.bitcnt := rfl
@[simp] theorem State.emit_ackf (e : Event) : (s.emit e).ackf = s.ackf := rfl
@[simp] theorem State.emit_ok (e : Event) : (s.emit e).ok = s.ok := rfl
@[simp] theorem State.emit_txnOpen (e : Event) : (s.emit e).txnOpen = s.txnOpen := rfl
@[simp] theorem State.emit_busy (e : Event) : (s.emit e).busy = s.busy := rfl
@[simp] theorem State.emit_addr (e : Event) : (s.emit e).addr = s.addr := rfl
@[simp] theorem State.emit_len (e : Event) : (s.emit e).len = s.len := rfl
@[simp] theorem State.emit_reg (e : Event) : (s.emit e).reg = s.reg := rfl
@[simp] theorem State.emit_val (e : Event) : (s.emit e).val = s.val := rfl
@[simp] theorem State.emit_txbuf (e : Event) : (s.emit e).txbuf = s.txbuf := rfl
@[simp] theorem State.emit_rxbuf (e : Event) : (s.emit e).rxbuf = s.rxbuf := rfl
@[simp] theorem State.emit_cmd (e : Event) : (s.emit e).cmd = s.cmd := rfl
@[simp] theorem State.emit_seq (e : Event) : (s.emit e).seq = s.seq := rfl
@[simp] theorem State.emit_idx (e : Event) : (s.emit e).idx = s.idx := rfl
@[simp] theorem State.emit_smp (e : Event) : (s.emit e).smp = s.smp := rfl
@[simp] theorem State.emit_rdata (e : Event) : (s.emit e).rdata = s.rdata := rfl
@[simp] theorem State.emit_host (e : Event) : (s.emit e).host = s.host := rfl
@[simp] theorem State.emit_peer (e : Event) : (s.emit e).peer = s.peer := rfl
@[simp] theorem State.emit_samples (e : Event) : (s.emit e).samples = s.samples := rfl
@[simp] theorem State.emit_params (e : Event) : (s.emit e).params = s.params := rfl
@[simp] theorem State.emit_trace (e : Event) : (s.emit e).trace = s.trace ++ [e] := rfl

/-! ### setSda -/

@[simp] theorem State.setSda_sdaDrv (d : Drv) : (s.setSda d).sdaDrv = d := rfl
@[simp] theorem State.setSda_sclDrv (d : Drv) : (s.setSda d).sclDrv = s.sclDrv := rfl
@[simp] theorem State.setSda_shr (d : Drv) : (s.setSda d).shr = s.shr := rfl
@[simp] theorem State.setSda_bitcnt (d : Drv) : (s.setSda d).bitcnt = s.bitcnt := rfl
@[simp] theorem State.setSda_ackf (d : Drv) : (s.setSda d).ackf = s.ackf := rfl
@[simp] theorem State.setSda_ok (d : Drv) : (s.setSda d).ok = s.ok := rfl
@[simp] theorem State.setSda_txnOpen (d : Drv) : (s.setSda d).txnOpen = s.txnOpen := rfl
@[simp] theorem State.setSda_busy (d : Drv) : (s.setSda d).busy = s.busy := rfl
@[simp] theorem State.setSda_addr (d : Drv) : (s.setSda d).addr = s.addr := rfl
@[simp] theorem State.setSda_len (d : Drv) : (s.setSda d).len = s.len := rfl
@[simp] theorem State.setSda_reg (d : Drv) : (s.setSda d).reg = s.reg := rfl
@[simp] theorem State.setSda_val (d : Drv) : (s.setSda d).val = s.val := rfl
@[simp] theorem State.setSda_txbuf (d : Drv) : (s.setSda d).txbuf = s.txbuf := rfl
@[simp] theorem State.setSda_rxbuf (d : Drv) : (s.setSda d).rxbuf = s.rxbuf := rfl
@[simp] theorem State.setSda_cmd (d : Drv) : (s.setSda d).cmd = s.cmd := rfl
@[simp] theorem State.setSda_seq (d : Drv) : (s.setSda d).seq = s.seq := rfl
@[simp] theorem State.setSda_idx (d : Drv) : (s.setSda d).idx = s.idx := rfl
@[simp] theorem State.setSda_smp (d : Drv) : (s.setSda d).smp = s.smp := rfl
@[simp] theorem State.setSda_rdata (d : Drv) : (s.setSda d).rdata = s.rdata := rfl
@[simp] theorem State.setSda_host (d : Drv) : (s.setSda d).host = s.host := rfl
@[simp] theorem State.setSda_peer (d : Drv) : (s.setSda d).peer = s.peer := rfl
@[simp] theorem State.setSda_samples (d : Drv) : (s.setSda d).samples = s.samples := rfl
@[simp] theorem State.setSda_params (d : Drv) : (s.setSda d).params = s.params := rfl
@[simp] theorem State.setSda_trace (d : Drv) : (s.setSda d).trace = s.trace := rfl

/-! ### setScl -/

@[simp] theorem State.setScl_sdaDrv (d : Drv) : (s.setScl d).sdaDrv = s.sdaDrv := rfl
@[simp] theorem State.setScl_sclDrv (d : Drv) : (s.setScl d).sclDrv = d := rfl
@[simp] theorem State.setScl_shr (d : Drv) : (s.setScl d).shr = s.shr := rfl
@[simp] theorem State.setScl_bitcnt (d : Drv) : (s.setScl d).bitcnt = s.bitcnt := rfl
@[simp] theorem State.setScl_ackf (d : Drv) : (s.setScl d).ackf = s.ackf := rfl
@[simp] theorem State.setScl_ok (d : Drv) : (s.setScl d).ok = s.ok := rfl
@[simp] theorem State.setScl_txnOpen (d : Drv) : (s.setScl d).txnOpen = s.txnOpen := rfl
@[simp] theorem State.setScl_busy (d : Drv) : (s.setScl d).busy = s.busy := rfl
@[simp] theorem State.setScl_addr (d : Drv) : (s.setScl d).addr = s.addr := rfl
@[simp] theorem State.setScl_len (d : Drv) : (s.setScl d).len = s.len := rfl
@[simp] theorem State.setScl_reg (d : Drv) : (s.setScl d).reg = s.reg := rfl
@[simp] theorem State.setScl_val (d : Drv) : (s.setScl d).val = s.val := rfl
@[simp] theorem State.setScl_txbuf (d : Drv) : (s.setScl d).txbuf = s.txbuf := rfl
@[simp] theorem State.setScl_rxbuf (d : Drv) : (s.setScl d).rxbuf = s.rxbuf := rfl
@[simp] theorem State.setScl_cmd (d : Drv) : (s.setScl d).cmd = s.cmd := rfl
@[simp] theorem State.setScl_seq (d : Drv) : (s.setScl d).seq = s.seq := rfl
@[simp] theorem State.setScl_idx (d : Drv) : (s.setScl d).idx = s.idx := rfl
@[simp] theorem State.setScl_smp (d : Drv) : (s.setScl d).smp = s.smp := rfl
@[simp] theorem State.setScl_rdata (d : Drv) : (s.setScl d).rdata = s.rdata := rfl
@[simp] theorem State.setScl_host (d : Drv) : (s.setScl d).host = s.host := rfl
@[simp] theorem State.setScl_peer (d : Drv) : (s.setScl d).peer = s.peer := rfl
@[simp] theorem State.setScl_samples (d : Drv) : (s.setScl d).samples = s.samples := rfl
@[simp] theorem State.setScl_params (d : Drv) : (s.setScl d).params = s.params := rfl
@[simp] theorem State.setScl_trace (d : Drv) : (s.setScl d).trace = s.trace := rfl

/-! ### setShr -/

@[simp] theorem State.setShr_sdaDrv (b : Byte) : (s.setShr b).sdaDrv = s.sdaDrv := rfl
@[simp] theorem State.setShr_sclDrv (b : Byte) : (s.setShr b).sclDrv = s.sclDrv := rfl
@[simp] theorem State.setShr_shr (b : Byte) : (s.setShr b).shr = b := rfl
@[simp] theorem State.setShr_bitcnt (b : Byte) : (s.setShr b).bitcnt = s.bitcnt := rfl
@[simp] theorem State.setShr_ackf (b : Byte) : (s.setShr b).ackf = s.ackf := rfl
@[simp] theorem State.setShr_ok (b : Byte) : (s.setShr b).ok = s.ok := rfl
@[simp] theorem State.setShr_txnOpen (b : Byte) : (s.setShr b).txnOpen = s.txnOpen := rfl
@[simp] theorem State.setShr_busy (b : Byte) : (s.setShr b).busy = s.busy := rfl
@[simp] theorem State.setShr_addr (b : Byte) : (s.setShr b).addr = s.addr := rfl
@[simp] theorem State.setShr_len (b : Byte) : (s.setShr b).len = s.len := rfl
@[simp] theorem State.setShr_reg (b : Byte) : (s.setShr b).reg = s.reg := rfl
@[simp] theorem State.setShr_val (b : Byte) : (s.setShr b).val = s.val := rfl
@[simp] theorem State.setShr_txbuf (b : Byte) : (s.setShr b).txbuf = s.txbuf := rfl
@[simp] theorem State.setShr_rxbuf (b : Byte) : (s.setShr b).rxbuf = s.rxbuf := rfl
@[simp] theorem State.setShr_cmd (b : Byte) : (s.setShr b).cmd = s.cmd := rfl
@[simp] theorem State.setShr_seq (b : Byte) : (s.setShr b).seq = s.seq := rfl
@[simp] theorem State.setShr_idx (b : Byte) : (s.setShr b).idx = s.idx := rfl
@[simp] theorem State.setShr_smp (b : Byte) : (s.setShr b).smp = s.smp := rfl
@[simp] theorem State.setShr_rdata (b : Byte) : (s.setShr b).rdata = s.rdata := rfl
@[simp] theorem State.setShr_host (b : Byte) : (s.setShr b).host = s.host := rfl
@[simp] theorem State.setShr_peer (b : Byte) : (s.setShr b).peer = s.peer := rfl
@[simp] theorem State.setShr_samples (b : Byte) : (s.setShr b).samples = s.samples := rfl
@[simp] theorem State.setShr_params (b : Byte) : (s.setShr b).params = s.params := rfl
@[simp] theorem State.setShr_trace (b : Byte) : (s.setShr b).trace = s.trace := rfl

/-! ### setBitcnt -/

@[simp] theorem State.setBitcnt_sdaDrv (n : BitVec 4) : (s.setBitcnt n).sdaDrv = s.sdaDrv := rfl
@[simp] theorem State.setBitcnt_sclDrv (n : BitVec 4) : (s.setBitcnt n).sclDrv = s.sclDrv := rfl
@[simp] theorem State.setBitcnt_shr (n : BitVec 4) : (s.setBitcnt n).shr = s.shr := rfl
@[simp] theorem State.setBitcnt_bitcnt (n : BitVec 4) : (s.setBitcnt n).bitcnt = n := rfl
@[simp] theorem State.setBitcnt_ackf (n : BitVec 4) : (s.setBitcnt n).ackf = s.ackf := rfl
@[simp] theorem State.setBitcnt_ok (n : BitVec 4) : (s.setBitcnt n).ok = s.ok := rfl
@[simp] theorem State.setBitcnt_txnOpen (n : BitVec 4) : (s.setBitcnt n).txnOpen = s.txnOpen := rfl
@[simp] theorem State.setBitcnt_busy (n : BitVec 4) : (s.setBitcnt n).busy = s.busy := rfl
@[simp] theorem State.setBitcnt_addr (n : BitVec 4) : (s.setBitcnt n).addr = s.addr := rfl
@[simp] theorem State.setBitcnt_len (n : BitVec 4) : (s.setBitcnt n).len = s.len := rfl
@[simp] theorem State.setBitcnt_reg (n : BitVec 4) : (s.setBitcnt n).reg = s.reg := rfl
@[simp] theorem State.setBitcnt_val (n : BitVec 4) : (s.setBitcnt n).val = s.val := rfl
@[simp] theorem State.setBitcnt_txbuf (n : BitVec 4) : (s.setBitcnt n).txbuf = s.txbuf := rfl
@[simp] theorem State.setBitcnt_rxbuf (n : BitVec 4) : (s.setBitcnt n).rxbuf = s.rxbuf := rfl
@[simp] theorem State.setBitcnt_cmd (n : BitVec 4) : (s.setBitcnt n).cmd = s.cmd := rfl
@[simp] theorem State.setBitcnt_seq (n : BitVec 4) : (s.setBitcnt n).seq = s.seq := rfl
@[simp] theorem State.setBitcnt_idx (n : BitVec 4) : (s.setBitcnt n).idx = s.idx := rfl
@[simp] theorem State.setBitcnt_smp (n : BitVec 4) : (s.setBitcnt n).smp = s.smp := rfl
@[simp] theorem State.setBitcnt_rdata (n : BitVec 4) : (s.setBitcnt n).rdata = s.rdata := rfl
@[simp] theorem State.setBitcnt_host (n : BitVec 4) : (s.setBitcnt n).host = s.host := rfl
@[simp] theorem State.setBitcnt_peer (n : BitVec 4) : (s.setBitcnt n).peer = s.peer := rfl
@[simp] theorem State.setBitcnt_samples (n : BitVec 4) : (s.setBitcnt n).samples = s.samples := rfl
@[simp] theorem State.setBitcnt_params (n : BitVec 4) : (s.setBitcnt n).params = s.params := rfl
@[simp] theorem State.setBitcnt_trace (n : BitVec 4) : (s.setBitcnt n).trace = s.trace := rfl

/-! ### setAckf -/

@[simp] theorem State.setAckf_sdaDrv (f : Bool) : (s.setAckf f).sdaDrv = s.sdaDrv := rfl
@[simp] theorem State.setAckf_sclDrv (f : Bool) : (s.setAckf f).sclDrv = s.sclDrv := rfl
@[simp] theorem State.setAckf_shr (f : Bool) : (s.setAckf f).shr = s.shr := rfl
@[simp] theorem State.setAckf_bitcnt (f : Bool) : (s.setAckf f).bitcnt = s.bitcnt := rfl
@[simp] theorem State.setAckf_ackf (f : Bool) : (s.setAckf f).ackf = f := rfl
@[simp] theorem State.setAckf_ok (f : Bool) : (s.setAckf f).ok = s.ok := rfl
@[simp] theorem State.setAckf_txnOpen (f : Bool) : (s.setAckf f).txnOpen = s.txnOpen := rfl
@[simp] theorem State.setAckf_busy (f : Bool) : (s.setAckf f).busy = s.busy := rfl
@[simp] theorem State.setAckf_addr (f : Bool) : (s.setAckf f).addr = s.addr := rfl
@[simp] theorem State.setAckf_len (f : Bool) : (s.setAckf f).len = s.len := rfl
@[simp] theorem State.setAckf_reg (f : Bool) : (s.setAckf f).reg = s.reg := rfl
@[simp] theorem State.setAckf_val (f : Bool) : (s.setAckf f).val = s.val := rfl
@[simp] theorem State.setAckf_txbuf (f : Bool) : (s.setAckf f).txbuf = s.txbuf := rfl
@[simp] theorem State.setAckf_rxbuf (f : Bool) : (s.setAckf f).rxbuf = s.rxbuf := rfl
@[simp] theorem State.setAckf_cmd (f : Bool) : (s.setAckf f).cmd = s.cmd := rfl
@[simp] theorem State.setAckf_seq (f : Bool) : (s.setAckf f).seq = s.seq := rfl
@[simp] theorem State.setAckf_idx (f : Bool) : (s.setAckf f).idx = s.idx := rfl
@[simp] theorem State.setAckf_smp (f : Bool) : (s.setAckf f).smp = s.smp := rfl
@[simp] theorem State.setAckf_rdata (f : Bool) : (s.setAckf f).rdata = s.rdata := rfl
@[simp] theorem State.setAckf_host (f : Bool) : (s.setAckf f).host = s.host := rfl
@[simp] theorem State.setAckf_peer (f : Bool) : (s.setAckf f).peer = s.peer := rfl
@[simp] theorem State.setAckf_samples (f : Bool) : (s.setAckf f).samples = s.samples := rfl
@[simp] theorem State.setAckf_params (f : Bool) : (s.setAckf f).params = s.params := rfl
@[simp] theorem State.setAckf_trace (f : Bool) : (s.setAckf f).trace = s.trace := rfl

/-! ### setOk -/

@[simp] theorem State.setOk_sdaDrv (f : Bool) : (s.setOk f).sdaDrv = s.sdaDrv := rfl
@[simp] theorem State.setOk_sclDrv (f : Bool) : (s.setOk f).sclDrv = s.sclDrv := rfl
@[simp] theorem State.setOk_shr (f : Bool) : (s.setOk f).shr = s.shr := rfl
@[simp] theorem State.setOk_bitcnt (f : Bool) : (s.setOk f).bitcnt = s.bitcnt := rfl
@[simp] theorem State.setOk_ackf (f : Bool) : (s.setOk f).ackf = s.ackf := rfl
@[simp] theorem State.setOk_ok (f : Bool) : (s.setOk f).ok = f := rfl
@[simp] theorem State.setOk_txnOpen (f : Bool) : (s.setOk f).txnOpen = s.txnOpen := rfl
@[simp] theorem State.setOk_busy (f : Bool) : (s.setOk f).busy = s.busy := rfl
@[simp] theorem State.setOk_addr (f : Bool) : (s.setOk f).addr = s.addr := rfl
@[simp] theorem State.setOk_len (f : Bool) : (s.setOk f).len = s.len := rfl
@[simp] theorem State.setOk_reg (f : Bool) : (s.setOk f).reg = s.reg := rfl
@[simp] theorem State.setOk_val (f : Bool) : (s.setOk f).val = s.val := rfl
@[simp] theorem State.setOk_txbuf (f : Bool) : (s.setOk f).txbuf = s.txbuf := rfl
@[simp] theorem State.setOk_rxbuf (f : Bool) : (s.setOk f).rxbuf = s.rxbuf := rfl
@[simp] theorem State.setOk_cmd (f : Bool) : (s.setOk f).cmd = s.cmd := rfl
@[simp] theorem State.setOk_seq (f : Bool) : (s.setOk f).seq = s.seq := rfl
@[simp] theorem State.setOk_idx (f : Bool) : (s.setOk f).idx = s.idx := rfl
@[simp] theorem State.setOk_smp (f : Bool) : (s.setOk f).smp = s.smp := rfl
@[simp] theorem State.setOk_rdata (f : Bool) : (s.setOk f).rdata = s.rdata := rfl
@[simp] theorem State.setOk_host (f : Bool) : (s.setOk f).host = s.host := rfl
@[simp] theorem State.setOk_peer (f : Bool) : (s.setOk f).peer = s.peer := rfl
@[simp] theorem State.setOk_samples (f : Bool) : (s.setOk f).samples = s.samples := rfl
@[simp] theorem State.setOk_params (f : Bool) : (s.setOk f).params = s.params := rfl
@[simp] theorem State.setOk_trace (f : Bool) : (s.setOk f).trace = s.trace := rfl

/-! ### setTxnOpen -/

@[simp] theorem State.setTxnOpen_sdaDrv (f : Bool) : (s.setTxnOpen f).sdaDrv = s.sdaDrv := rfl
@[simp] theorem State.setTxnOpen_sclDrv (f : Bool) : (s.setTxnOpen f).sclDrv = s.sclDrv := rfl
@[simp] theorem State.setTxnOpen_shr (f : Bool) : (s.setTxnOpen f).shr = s.shr := rfl
@[simp] theorem State.setTxnOpen_bitcnt (f : Bool) : (s.setTxnOpen f).bitcnt = s.bitcnt := rfl
@[simp] theorem State.setTxnOpen_ackf (f : Bool) : (s.setTxnOpen f).ackf = s.ackf := rfl
@[simp] theorem State.setTxnOpen_ok (f : Bool) : (s.setTxnOpen f).ok = s.ok := rfl
@[simp] theorem State.setTxnOpen_txnOpen (f : Bool) : (s.setTxnOpen f).txnOpen = f := rfl
@[simp] theorem State.setTxnOpen_busy (f : Bool) : (s.setTxnOpen f).busy = s.busy := rfl
@[simp] theorem State.setTxnOpen_addr (f : Bool) : (s.setTxnOpen f).addr = s.addr := rfl
@[simp] theorem State.setTxnOpen_len (f : Bool) : (s.setTxnOpen f).len = s.len := rfl
@[simp] theorem State.setTxnOpen_reg (f : Bool) : (s.setTxnOpen f).reg = s.reg := rfl
@[simp] theorem State.setTxnOpen_val (f : Bool) : (s.setTxnOpen f).val = s.val := rfl
@[simp] theorem State.setTxnOpen_txbuf (f : Bool) : (s.setTxnOpen f).txbuf = s.txbuf := rfl
@[simp] theorem State.setTxnOpen_rxbuf (f : Bool) : (s.setTxnOpen f).rxbuf = s.rxbuf := rfl
@[simp] theorem State.setTxnOpen_cmd (f : Bool) : (s.setTxnOpen f).cmd = s.cmd := rfl
@[simp] theorem State.setTxnOpen_seq (f : Bool) : (s.setTxnOpen f).seq = s.seq := rfl
@[simp] theorem State.setTxnOpen_idx (f : Bool) : (s.setTxnOpen f).idx = s.idx := rfl
@[simp] theorem State.setTxnOpen_smp (f : Bool) : (s.setTxnOpen f).smp = s.smp := rfl
@[simp] theorem State.setTxnOpen_rdata (f : Bool) : (s.setTxnOpen f).rdata = s.rdata := rfl
@[simp] theorem State.setTxnOpen_host (f : Bool) : (s.setTxnOpen f).host = s.host := rfl
@[simp] theorem State.setTxnOpen_peer (f : Bool) : (s.setTxnOpen f).peer = s.peer := rfl
@[simp] theorem State.setTxnOpen_samples (f : Bool) : (s.setTxnOpen f).samples = s.samples := rfl
@[simp] theorem State.setTxnOpen_params (f : Bool) : (s.setTxnOpen f).params = s.params := rfl
@[simp] theorem State.setTxnOpen_trace (f : Bool) : (s.setTxnOpen f).trace = s.trace := rfl

/-! ### setVal -/

@[simp] theorem State.setVal_sdaDrv (b : Byte) : (s.setVal b).sdaDrv = s.sdaDrv := rfl
@[simp] theorem State.setVal_sclDrv (b : Byte) : (s.setVal b).sclDrv = s.sclDrv := rfl
@[simp] theorem State.setVal_shr (b : Byte) : (s.setVal b).shr = s.shr := rfl
@[simp] theorem State.setVal_bitcnt (b : Byte) : (s.setVal b).bitcnt = s.bitcnt := rfl
@[simp] theorem State.setVal_ackf (b : Byte) : (s.setVal b).ackf = s.ackf := rfl
@[simp] theorem State.setVal_ok (b : Byte) : (s.setVal b).ok = s.ok := rfl
@[simp] theorem State.setVal_txnOpen (b : Byte) : (s.setVal b).txnOpen = s.txnOpen := rfl
@[simp] theorem State.setVal_busy (b : Byte) : (s.setVal b).busy = s.busy := rfl
@[simp] theorem State.setVal_addr (b : Byte) : (s.setVal b).addr = s.addr := rfl
@[simp] theorem State.setVal_len (b : Byte) : (s.setVal b).len = s.len := rfl
@[simp] theorem State.setVal_reg (b : Byte) : (s.setVal b).reg = s.reg := rfl
@[simp] theorem State.setVal_val (b : Byte) : (s.setVal b).val = b := rfl
@[simp] theorem State.setVal_txbuf (b : Byte) : (s.setVal b).txbuf = s.txbuf := rfl
@[simp] theorem State.setVal_rxbuf (b : Byte) : (s.setVal b).rxbuf = s.rxbuf := rfl
@[simp] theorem State.setVal_cmd (b : Byte) : (s.setVal b).cmd = s.cmd := rfl
@[simp] theorem State.setVal_seq (b : Byte) : (s.setVal b).seq = s.seq := rfl
@[simp] theorem State.setVal_idx (b : Byte) : (s.setVal b).idx = s.idx := rfl
@[simp] theorem State.setVal_smp (b : Byte) : (s.setVal b).smp = s.smp := rfl
@[simp] theorem State.setVal_rdata (b : Byte) : (s.setVal b).rdata = s.rdata := rfl
@[simp] theorem State.setVal_host (b : Byte) : (s.setVal b).host = s.host := rfl
@[simp] theorem State.setVal_peer (b : Byte) : (s.setVal b).peer = s.peer := rfl
@[simp] theorem State.setVal_samples (b : Byte) : (s.setVal b).samples = s.samples := rfl
@[simp] theorem State.setVal_params (b : Byte) : (s.setVal b).params = s.params := rfl
@[simp] theorem State.setVal_trace (b : Byte) : (s.setVal b).trace = s.trace := rfl

/-! ### setIdx -/

@[simp] theorem State.setIdx_sdaDrv (n : Count) : (s.setIdx n).sdaDrv = s.sdaDrv := rfl
@[simp] theorem State.setIdx_sclDrv (n : Count) : (s.setIdx n).sclDrv = s.sclDrv := rfl
@[simp] theorem State.setIdx_shr (n : Count) : (s.setIdx n).shr = s.shr := rfl
@[simp] theorem State.setIdx_bitcnt (n : Count) : (s.setIdx n).bitcnt = s.bitcnt := rfl
@[simp] theorem State.setIdx_ackf (n : Count) : (s.setIdx n).ackf = s.ackf := rfl
@[simp] theorem State.setIdx_ok (n : Count) : (s.setIdx n).ok = s.ok := rfl
@[simp] theorem State.setIdx_txnOpen (n : Count) : (s.setIdx n).txnOpen = s.txnOpen := rfl
@[simp] theorem State.setIdx_busy (n : Count) : (s.setIdx n).busy = s.busy := rfl
@[simp] theorem State.setIdx_addr (n : Count) : (s.setIdx n).addr = s.addr := rfl
@[simp] theorem State.setIdx_len (n : Count) : (s.setIdx n).len = s.len := rfl
@[simp] theorem State.setIdx_reg (n : Count) : (s.setIdx n).reg = s.reg := rfl
@[simp] theorem State.setIdx_val (n : Count) : (s.setIdx n).val = s.val := rfl
@[simp] theorem State.setIdx_txbuf (n : Count) : (s.setIdx n).txbuf = s.txbuf := rfl
@[simp] theorem State.setIdx_rxbuf (n : Count) : (s.setIdx n).rxbuf = s.rxbuf := rfl
@[simp] theorem State.setIdx_cmd (n : Count) : (s.setIdx n).cmd = s.cmd := rfl
@[simp] theorem State.setIdx_seq (n : Count) : (s.setIdx n).seq = s.seq := rfl
@[simp] theorem State.setIdx_idx (n : Count) : (s.setIdx n).idx = n := rfl
@[simp] theorem State.setIdx_smp (n : Count) : (s.setIdx n).smp = s.smp := rfl
@[simp] theorem State.setIdx_rdata (n : Count) : (s.setIdx n).rdata = s.rdata := rfl
@[simp] theorem State.setIdx_host (n : Count) : (s.setIdx n).host = s.host := rfl
@[simp] theorem State.setIdx_peer (n : Count) : (s.setIdx n).peer = s.peer := rfl
@[simp] theorem State.setIdx_samples (n : Count) : (s.setIdx n).samples = s.samples := rfl
@[simp] theorem State.setIdx_params (n : Count) : (s.setIdx n).params = s.params := rfl
@[simp] theorem State.setIdx_trace (n : Count) : (s.setIdx n).trace = s.trace := rfl

/-! ### setSeq -/

@[simp] theorem State.setSeq_sdaDrv (q : Seq) : (s.setSeq q).sdaDrv = s.sdaDrv := rfl
@[simp] theorem State.setSeq_sclDrv (q : Seq) : (s.setSeq q).sclDrv = s.sclDrv := rfl
@[simp] theorem State.setSeq_shr (q : Seq) : (s.setSeq q).shr = s.shr := rfl
@[simp] theorem State.setSeq_bitcnt (q : Seq) : (s.setSeq q).bitcnt = s.bitcnt := rfl
@[simp] theorem State.setSeq_ackf (q : Seq) : (s.setSeq q).ackf = s.ackf := rfl
@[simp] theorem State.setSeq_ok (q : Seq) : (s.setSeq q).ok = s.ok := rfl
@[simp] theorem State.setSeq_txnOpen (q : Seq) : (s.setSeq q).txnOpen = s.txnOpen := rfl
@[simp] theorem State.setSeq_busy (q : Seq) : (s.setSeq q).busy = s.busy := rfl
@[simp] theorem State.setSeq_addr (q : Seq) : (s.setSeq q).addr = s.addr := rfl
@[simp] theorem State.setSeq_len (q : Seq) : (s.setSeq q).len = s.len := rfl
@[simp] theorem State.setSeq_reg (q : Seq) : (s.setSeq q).reg = s.reg := rfl
@[simp] theorem State.setSeq_val (q : Seq) : (s.setSeq q).val = s.val := rfl
@[simp] theorem State.setSeq_txbuf (q : Seq) : (s.setSeq q).txbuf = s.txbuf := rfl
@[simp] theorem State.setSeq_rxbuf (q : Seq) : (s.setSeq q).rxbuf = s.rxbuf := rfl
@[simp] theorem State.setSeq_cmd (q : Seq) : (s.setSeq q).cmd = s.cmd := rfl
@[simp] theorem State.setSeq_seq (q : Seq) : (s.setSeq q).seq = q := rfl
@[simp] theorem State.setSeq_idx (q : Seq) : (s.setSeq q).idx = s.idx := rfl
@[simp] theorem State.setSeq_smp (q : Seq) : (s.setSeq q).smp = s.smp := rfl
@[simp] theorem State.setSeq_rdata (q : Seq) : (s.setSeq q).rdata = s.rdata := rfl
@[simp] theorem State.setSeq_host (q : Seq) : (s.setSeq q).host = s.host := rfl
@[simp] theorem State.setSeq_peer (q : Seq) : (s.setSeq q).peer = s.peer := rfl
@[simp] theorem State.setSeq_samples (q : Seq) : (s.setSeq q).samples = s.samples := rfl
@[simp] theorem State.setSeq_params (q : Seq) : (s.setSeq q).params = s.params := rfl
@[simp] theorem State.setSeq_trace (q : Seq) : (s.setSeq q).trace = s.trace := rfl

/-! ### setBusy -/

@[simp] theorem State.setBusy_sdaDrv (f : Bool) : (s.setBusy f).sdaDrv = s.sdaDrv := rfl
@[simp] theorem State.setBusy_sclDrv (f : Bool) : (s.setBusy f).sclDrv = s.sclDrv := rfl
@[simp] theorem State.setBusy_shr (f : Bool) : (s.setBusy f).shr = s.shr := rfl
@[simp] theorem State.setBusy_bitcnt (f : Bool) : (s.setBusy f).bitcnt = s.bitcnt := rfl
@[simp] theorem State.setBusy_ackf (f : Bool) : (s.setBusy f).ackf = s.ackf := rfl
@[simp] theorem State.setBusy_ok (f : Bool) : (s.setBusy f).ok = s.ok := rfl
@[simp] theorem State.setBusy_txnOpen (f : Bool) : (s.setBusy f).txnOpen = s.txnOpen := rfl
@[simp] theorem State.setBusy_busy (f : Bool) : (s.setBusy f).busy = f := rfl
@[simp] theorem State.setBusy_addr (f : Bool) : (s.setBusy f).addr = s.addr := rfl
@[simp] theorem State.setBusy_len (f : Bool) : (s.setBusy f).len = s.len := rfl
@[simp] theorem State.setBusy_reg (f : Bool) : (s.setBusy f).reg = s.reg := rfl
@[simp] theorem State.setBusy_val (f : Bool) : (s.setBusy f).val = s.val := rfl
@[simp] theorem State.setBusy_txbuf (f : Bool) : (s.setBusy f).txbuf = s.txbuf := rfl
@[simp] theorem State.setBusy_rxbuf (f : Bool) : (s.setBusy f).rxbuf = s.rxbuf := rfl
@[simp] theorem State.setBusy_cmd (f : Bool) : (s.setBusy f).cmd = s.cmd := rfl
@[simp] theorem State.setBusy_seq (f : Bool) : (s.setBusy f).seq = s.seq := rfl
@[simp] theorem State.setBusy_idx (f : Bool) : (s.setBusy f).idx = s.idx := rfl
@[simp] theorem State.setBusy_smp (f : Bool) : (s.setBusy f).smp = s.smp := rfl
@[simp] theorem State.setBusy_rdata (f : Bool) : (s.setBusy f).rdata = s.rdata := rfl
@[simp] theorem State.setBusy_host (f : Bool) : (s.setBusy f).host = s.host := rfl
@[simp] theorem State.setBusy_peer (f : Bool) : (s.setBusy f).peer = s.peer := rfl
@[simp] theorem State.setBusy_samples (f : Bool) : (s.setBusy f).samples = s.samples := rfl
@[simp] theorem State.setBusy_params (f : Bool) : (s.setBusy f).params = s.params := rfl
@[simp] theorem State.setBusy_trace (f : Bool) : (s.setBusy f).trace = s.trace := rfl

/-! ### takeSample -/

@[simp] theorem State.takeSample_sdaDrv (v : Bool) : (s.takeSample v).sdaDrv = s.sdaDrv := rfl
@[simp] theorem State.takeSample_sclDrv (v : Bool) : (s.takeSample v).sclDrv = s.sclDrv := rfl
@[simp] theorem State.takeSample_shr (v : Bool) : (s.takeSample v).shr = s.shr := rfl
@[simp] theorem State.takeSample_bitcnt (v : Bool) : (s.takeSample v).bitcnt = s.bitcnt := rfl
@[simp] theorem State.takeSample_ackf (v : Bool) : (s.takeSample v).ackf = s.ackf := rfl
@[simp] theorem State.takeSample_ok (v : Bool) : (s.takeSample v).ok = s.ok := rfl
@[simp] theorem State.takeSample_txnOpen (v : Bool) : (s.takeSample v).txnOpen = s.txnOpen := rfl
@[simp] theorem State.takeSample_busy (v : Bool) : (s.takeSample v).busy = s.busy := rfl
@[simp] theorem State.takeSample_addr (v : Bool) : (s.takeSample v).addr = s.addr := rfl
@[simp] theorem State.takeSample_len (v : Bool) : (s.takeSample v).len = s.len := rfl
@[simp] theorem State.takeSample_reg (v : Bool) : (s.takeSample v).reg = s.reg := rfl
@[simp] theorem State.takeSample_val (v : Bool) : (s.takeSample v).val = s.val := rfl
@[simp] theorem State.takeSample_txbuf (v : Bool) : (s.takeSample v).txbuf = s.txbuf := rfl
@[simp] theorem State.takeSample_rxbuf (v : Bool) : (s.takeSample v).rxbuf = s.rxbuf := rfl
@[simp] theorem State.takeSample_cmd (v : Bool) : (s.takeSample v).cmd = s.cmd := rfl
@[simp] theorem State.takeSample_seq (v : Bool) : (s.takeSample v).seq = s.seq := rfl
@[simp] theorem State.takeSample_idx (v : Bool) : (s.takeSample v).idx = s.idx := rfl
@[simp] theorem State.takeSample_smp (v : Bool) : (s.takeSample v).smp = v := rfl
@[simp] theorem State.takeSample_rdata (v : Bool) : (s.takeSample v).rdata = s.rdata := rfl
@[simp] theorem State.takeSample_host (v : Bool) : (s.takeSample v).host = s.host := rfl
@[simp] theorem State.takeSample_peer (v : Bool) : (s.takeSample v).peer = s.peer.tail := rfl
@[simp] theorem State.takeSample_samples (v : Bool) : (s.takeSample v).samples = s.samples + 1 := rfl
@[simp] theorem State.takeSample_params (v : Bool) : (s.takeSample v).params = s.params := rfl
@[simp] theorem State.takeSample_trace (v : Bool) : (s.takeSample v).trace = s.trace := rfl

/-! ### setRx -/

@[simp] theorem State.setRx_sdaDrv (i : Nat) (v : Byte) : (s.setRx i v).sdaDrv = s.sdaDrv := rfl
@[simp] theorem State.setRx_sclDrv (i : Nat) (v : Byte) : (s.setRx i v).sclDrv = s.sclDrv := rfl
@[simp] theorem State.setRx_shr (i : Nat) (v : Byte) : (s.setRx i v).shr = s.shr := rfl
@[simp] theorem State.setRx_bitcnt (i : Nat) (v : Byte) : (s.setRx i v).bitcnt = s.bitcnt := rfl
@[simp] theorem State.setRx_ackf (i : Nat) (v : Byte) : (s.setRx i v).ackf = s.ackf := rfl
@[simp] theorem State.setRx_ok (i : Nat) (v : Byte) : (s.setRx i v).ok = s.ok := rfl
@[simp] theorem State.setRx_txnOpen (i : Nat) (v : Byte) : (s.setRx i v).txnOpen = s.txnOpen := rfl
@[simp] theorem State.setRx_busy (i : Nat) (v : Byte) : (s.setRx i v).busy = s.busy := rfl
@[simp] theorem State.setRx_addr (i : Nat) (v : Byte) : (s.setRx i v).addr = s.addr := rfl
@[simp] theorem State.setRx_len (i : Nat) (v : Byte) : (s.setRx i v).len = s.len := rfl
@[simp] theorem State.setRx_reg (i : Nat) (v : Byte) : (s.setRx i v).reg = s.reg := rfl
@[simp] theorem State.setRx_val (i : Nat) (v : Byte) : (s.setRx i v).val = s.val := rfl
@[simp] theorem State.setRx_txbuf (i : Nat) (v : Byte) : (s.setRx i v).txbuf = s.txbuf := rfl
@[simp] theorem State.setRx_rxbuf (i : Nat) (v : Byte) : (s.setRx i v).rxbuf = Mem.write s.rxbuf i v := rfl
@[simp] theorem State.setRx_cmd (i : Nat) (v : Byte) : (s.setRx i v).cmd = s.cmd := rfl
@[simp] theorem State.setRx_seq (i : Nat) (v : Byte) : (s.setRx i v).seq = s.seq := rfl
@[simp] theorem State.setRx_idx (i : Nat) (v : Byte) : (s.setRx i v).idx = s.idx := rfl
@[simp] theorem State.setRx_smp (i : Nat) (v : Byte) : (s.setRx i v).smp = s.smp := rfl
@[simp] theorem State.setRx_rdata (i : Nat) (v : Byte) : (s.setRx i v).rdata = s.rdata := rfl
@[simp] theorem State.setRx_host (i : Nat) (v : Byte) : (s.setRx i v).host = s.host := rfl
@[simp] theorem State.setRx_peer (i : Nat) (v : Byte) : (s.setRx i v).peer = s.peer := rfl
@[simp] theorem State.setRx_samples (i : Nat) (v : Byte) : (s.setRx i v).samples = s.samples := rfl
@[simp] theorem State.setRx_params (i : Nat) (v : Byte) : (s.setRx i v).params = s.params := rfl
@[simp] theorem State.setRx_trace (i : Nat) (v : Byte) : (s.setRx i v).trace = s.trace := rfl

end Sys2Proof.Machine
end

