-- ==== Sys2Proof/Laws/Ops.lean ====
section
/-! SUPPORT. One lemma per shared operation that says everything it does, as one record update. A proof
about an instruction cites these and unfolds none of the operations. -/

namespace Sys2Proof.Machine

/-! ### The pin primitives -/

theorem State.sdaLow_eq (s : State) :
    s.sdaLow = { s with sdaDrv := .drivenLow, trace := s.trace ++ [.sdaLow] } := rfl

theorem State.sdaRel_eq (s : State) :
    s.sdaRel = { s with sdaDrv := .released, trace := s.trace ++ [.sdaRel] } := rfl

theorem State.sclLow_eq (s : State) :
    s.sclLow = { s with sclDrv := .drivenLow, trace := s.trace ++ [.sclLow] } := rfl

theorem State.sclRel_eq (s : State) :
    s.sclRel = { s with sclDrv := .released, trace := s.trace ++ [.sclRel] } := rfl

theorem State.wait_eq (s : State) : s.wait = { s with trace := s.trace ++ [.wait] } := rfl

theorem State.sdaSample_eq (s : State) :
    s.sdaSample = { s with smp := s.sdaLevel, peer := s.peer.tail, samples := s.samples + 1,
                           trace := s.trace ++ [.sample s.sdaLevel] } := rfl

theorem State.sdaBit_eq (s : State) (bit : Bool) :
    s.sdaBit bit = { s with sdaDrv := if bit then .released else .drivenLow,
                            trace := s.trace ++ [bitEvent bit] } := by
  cases bit <;> rfl

/-! ### The environment -/

/-- With SDA released, the level sampled is the environment's next answer. -/
theorem State.sdaLevel_released {s : State} (h : s.sdaDrv = .released) : s.sdaLevel = s.answer 0 := by
  simp [State.sdaLevel, State.answer, h]

/-- After a sample the answers to come are the later ones. -/
theorem State.answer_takeSample (s : State) (v : Bool) (k : Nat) :
    (s.takeSample v).answer k = s.answer (k + 1) := by
  have hidx : s.samples + 1 + k = s.samples + (k + 1) := by omega
  simp [State.answer, State.peerAt, hidx]

/-- The answers to come depend on the environment, its index and the pull-up only. -/
theorem State.answer_congr {s t : State} (hp : s.peer = t.peer) (hn : s.samples = t.samples)
    (hu : s.params = t.params) (k : Nat) : s.answer k = t.answer k := by
  simp [State.answer, State.peerAt, hp, hn, hu]

/-! ### The bus conditions and the end of a command -/

theorem State.startCondition_eq (s : State) :
    s.startCondition = { s with sdaDrv := .drivenLow, sclDrv := .drivenLow, txnOpen := true,
                                trace := s.trace ++ startEvents } := by
  simp [State.startCondition, State.sdaRel_eq, State.sclRel_eq, State.wait_eq, State.sdaLow_eq,
    State.sclLow_eq, State.setTxnOpen, startEvents]

theorem State.stopCondition_eq (s : State) :
    s.stopCondition = { s with sdaDrv := .released, sclDrv := .released, txnOpen := false,
                               trace := s.trace ++ stopEvents } := by
  simp [State.stopCondition, State.sdaRel_eq, State.sclRel_eq, State.wait_eq, State.sdaLow_eq,
    State.setTxnOpen, stopEvents]

theorem State.endCommand_eq (s : State) : s.endCommand = { s with busy := false, seq := .idle } := rfl

theorem State.succeed_eq (s : State) :
    s.succeed = { s with sdaDrv := .released, sclDrv := .released, txnOpen := false, ok := true,
                         busy := false, seq := .idle, trace := s.trace ++ stopEvents } := by
  simp [State.succeed, State.stopCondition_eq, State.endCommand_eq, State.setOk]

theorem State.raiseNack_eq (s : State) :
    s.raiseNack = { s with sdaDrv := .released, sclDrv := .released, txnOpen := false, ok := false,
                           busy := false, seq := .idle, trace := s.trace ++ stopEvents } := by
  simp [State.raiseNack, State.stopCondition_eq, State.endCommand_eq, State.setOk]

/-! ### The byte transfers -/

theorem State.loadByte_eq (s : State) (b : Byte) :
    s.loadByte b = { s with shr := b, bitcnt := 0 } := rfl

theorem State.sendCell_eq (s : State) :
    s.sendCell = { s with sdaDrv := if s.shr.getLsbD 7 then .released else .drivenLow,
                          sclDrv := .drivenLow, shr := s.shr <<< 1, bitcnt := s.bitcnt + 1,
                          trace := s.trace ++ drivenCell (s.shr.getLsbD 7) } := by
  simp [State.sendCell, State.sdaBit_eq, State.wait_eq, State.sclRel_eq, State.sclLow_eq,
    State.shiftSent, State.countBit, State.setShr, State.setBitcnt, shiftOut, drivenCell]

theorem State.ackCellIn_eq (s : State) :
    s.ackCellIn = { s with sdaDrv := .released, sclDrv := .drivenLow, ackf := !s.answer 0,
                           smp := s.answer 0, peer := s.peer.tail, samples := s.samples + 1,
                           trace := s.trace ++ sampledCell (s.answer 0) } := by
  simp [State.ackCellIn, State.sdaRel_eq, State.wait_eq, State.sclRel_eq, State.sdaSample_eq,
    State.sclLow_eq, State.latchAck, State.setAckf, ackOfLevel, State.sdaLevel, State.answer,
    State.peerAt, sampledCell]

theorem State.recvCell_eq (s : State) :
    s.recvCell = { s with sdaDrv := .released, sclDrv := .drivenLow, shr := shiftIn s.shr (s.answer 0),
                          bitcnt := s.bitcnt + 1, smp := s.answer 0, peer := s.peer.tail,
                          samples := s.samples + 1, trace := s.trace ++ sampledCell (s.answer 0) } := by
  simp [State.recvCell, State.sdaRel_eq, State.wait_eq, State.sclRel_eq, State.sdaSample_eq,
    State.sclLow_eq, State.shiftSampled, State.countBit, State.setShr, State.setBitcnt, State.sdaLevel,
    State.answer, State.peerAt, sampledCell]

theorem State.ackCellOut_eq (s : State) (a : Bool) :
    s.ackCellOut a = { s with sdaDrv := .released, sclDrv := .drivenLow,
                              trace := s.trace ++ (drivenCell (!a) ++ [.sdaRel]) } := by
  simp [State.ackCellOut, State.sdaBit_eq, State.wait_eq, State.sclRel_eq, State.sclLow_eq,
    State.sdaRel_eq, drivenCell]

/-- The bits WBYTE's eight cells present are those of the byte, most significant first. -/
theorem byteBits_shiftOut (b : Byte) :
    byteBits b = [b.getLsbD 7, (b <<< 1).getLsbD 7, (b <<< 1 <<< 1).getLsbD 7,
      (b <<< 1 <<< 1 <<< 1).getLsbD 7, (b <<< 1 <<< 1 <<< 1 <<< 1).getLsbD 7,
      (b <<< 1 <<< 1 <<< 1 <<< 1 <<< 1).getLsbD 7, (b <<< 1 <<< 1 <<< 1 <<< 1 <<< 1 <<< 1).getLsbD 7,
      (b <<< 1 <<< 1 <<< 1 <<< 1 <<< 1 <<< 1 <<< 1).getLsbD 7] := by
  simp [byteBits, BitVec.getLsbD_eq_getElem]

/-- Eight shifts leave nothing of a byte. -/
theorem shiftOut_eight (b : Byte) :
    b <<< 1 <<< 1 <<< 1 <<< 1 <<< 1 <<< 1 <<< 1 <<< 1 = 0 := by
  simp only [← BitVec.shiftLeft_add]
  exact BitVec.shiftLeft_eq_zero (by decide)

/-- WBYTE, whole (42_byte_transfer.md R110). -/
theorem State.sendByte_eq (s : State) (b : Byte) :
    s.sendByte b = { s with sdaDrv := .released, sclDrv := .drivenLow, shr := 0, bitcnt := 8,
                            ackf := !s.answer 0, smp := s.answer 0, peer := s.peer.tail,
                            samples := s.samples + 1,
                            trace := s.trace ++ wbyteEvents b (s.answer 0) } := by
  simp only [State.sendByte, State.sendCells, State.loadByte_eq, State.sendCell_eq, State.ackCellIn_eq,
    shiftOut_eight, wbyteEvents, byteBits_shiftOut b, List.flatMap_cons, List.flatMap_nil,
    List.append_nil, List.append_assoc]
  rfl

/-- Once `n` samples have been taken, the answers to come are the later ones. -/
theorem State.answer_later {s t : State} {n : Nat} (hp : t.peer = s.peer.drop n)
    (hn : t.samples = s.samples + n) (hu : t.params = s.params) (k : Nat) :
    t.answer k = s.answer (n + k) := by
  have hidx : s.samples + n + k = s.samples + (n + k) := by omega
  simp [State.answer, State.peerAt, hp, hn, hu, hidx]

/-- Eight samples shifted in are the bits of the byte they make, most significant first. -/
theorem byteBits_shiftIn (a b c d e f g h : Bool) :
    byteBits (shiftIn (shiftIn (shiftIn (shiftIn (shiftIn (shiftIn (shiftIn (shiftIn 0 a) b) c) d) e) f) g) h)
      = [a, b, c, d, e, f, g, h] := by
  cases a <;> cases b <;> cases c <;> cases d <;> cases e <;> cases f <;> cases g <;> cases h <;> decide

/-- The bits of an answered byte are the answers. -/
theorem State.byteBits_answerByte (s : State) (k : Nat) :
    byteBits (s.answerByte k) = [s.answer k, s.answer (k + 1), s.answer (k + 2), s.answer (k + 3),
      s.answer (k + 4), s.answer (k + 5), s.answer (k + 6), s.answer (k + 7)] :=
  byteBits_shiftIn ..

/-- RBYTE, whole (42_byte_transfer.md R111). -/
theorem State.recvByte_eq (s : State) (a : Bool) :
    s.recvByte a = { s with sdaDrv := .released, sclDrv := .drivenLow, shr := s.answerByte 0, bitcnt := 8,
                            smp := s.answer 7, peer := s.peer.drop 8, samples := s.samples + 8,
                            trace := s.trace ++ rbyteEvents (s.answerByte 0) a } := by
  have hpeer : s.peer.drop 8 = s.peer.tail.tail.tail.tail.tail.tail.tail.tail := by
    simp only [← List.drop_one, List.drop_drop]
  rw [hpeer]
  simp only [State.recvByte, State.recvCells, State.loadByte_eq, State.recvCell_eq, State.ackCellOut_eq,
    rbyteEvents, State.byteBits_answerByte, List.flatMap_cons, List.flatMap_nil, List.append_nil,
    List.append_assoc]
  simp only [State.answerByte, State.answer, State.peerAt, List.getElem?_tail, Nat.add_assoc,
    Nat.reduceAdd, Nat.zero_add, Nat.add_zero]
  rfl

end Sys2Proof.Machine
end

