-- ==== Sys2Proof/Laws/PerInstr.lean ====
section
/-! SUPPORT. What holds of every operation as syntax, one lemma per constructor. -/

namespace Sys2Proof.Laws.HostIssuable

/-- Only level C, the level field 0b0010, can be issued by the host (30_encoding.md R66, R67). -/
def Statement (i : Instr) : Prop := i.hostIssuable = decide (levelField (encode i) = 0b0010)

theorem sdaLow : Statement .sdaLow := by unfold Statement; decide

theorem sdaRel : Statement .sdaRel := by unfold Statement; decide

theorem sclLow : Statement .sclLow := by unfold Statement; decide

theorem sclRel : Statement .sclRel := by unfold Statement; decide

theorem sdaSample : Statement .sdaSample := by unfold Statement; decide

theorem wait : Statement .wait := by unfold Statement; decide

theorem start : Statement .start := by unfold Statement; decide

theorem stop : Statement .stop := by unfold Statement; decide

theorem wbyte : Statement .wbyte := by unfold Statement; decide

theorem rbyte (a : Bool) : Statement (.rbyte a) := by
  unfold Statement
  cases a <;> decide

theorem begin : Statement .begin := by unfold Statement; decide

theorem write : Statement .write := by unfold Statement; decide

theorem read : Statement .read := by unfold Statement; decide

theorem writeReg : Statement .writeReg := by unfold Statement; decide

theorem readReg : Statement .readReg := by unfold Statement; decide

end Sys2Proof.Laws.HostIssuable
end

