-- ==== Sys2Proof/Laws/Sequencer.lean ====
section
/-! SUPPORT. The laws of the sequencer and of a step: what one primitive of a command leaves alone, what
it adds to the observation, and the six ways in which a step answers a next state. -/

namespace Sys2Proof.Machine

/-- `t` has the operands, buffers, position and results of `s`. -/
structure State.KeepsRegisters (s t : State) : Prop where
  addr : t.addr = s.addr
  len : t.len = s.len
  reg : t.reg = s.reg
  val : t.val = s.val
  txbuf : t.txbuf = s.txbuf
  rxbuf : t.rxbuf = s.rxbuf
  cmd : t.cmd = s.cmd
  idx : t.idx = s.idx
  ok : t.ok = s.ok
  busy : t.busy = s.busy
  seq : t.seq = s.seq
  host : t.host = s.host
  params : t.params = s.params

theorem State.KeepsRegisters.refl (s : State) : s.KeepsRegisters s := by constructor <;> rfl

theorem State.KeepsRegisters.trans {s t u : State} (h : s.KeepsRegisters t) (h' : t.KeepsRegisters u) :
    s.KeepsRegisters u where
  addr := h'.addr.trans h.addr
  len := h'.len.trans h.len
  reg := h'.reg.trans h.reg
  val := h'.val.trans h.val
  txbuf := h'.txbuf.trans h.txbuf
  rxbuf := h'.rxbuf.trans h.rxbuf
  cmd := h'.cmd.trans h.cmd
  idx := h'.idx.trans h.idx
  ok := h'.ok.trans h.ok
  busy := h'.busy.trans h.busy
  seq := h'.seq.trans h.seq
  host := h'.host.trans h.host
  params := h'.params.trans h.params

theorem runPrim_keeps (i : Instr) (s : State) : s.KeepsRegisters (runPrim i s) := by
  cases i <;> constructor <;> rfl

theorem entered_keeps (p : Place) (k : Nat) (s : State) : s.KeepsRegisters (entered p k s) := by
  unfold entered
  split
  · cases p.op s <;> constructor <;> rfl
  · exact .refl s

theorem afterPrim_keeps (op : Instr) (k : Nat) (s : State) : s.KeepsRegisters (afterPrim op k s) := by
  cases op <;> unfold afterPrim <;> dsimp only <;> (repeat' split) <;> constructor <;> rfl

/-- A primitive of a command writes no operand, no buffer, no result and no position. -/
theorem ranPrim_keeps (p : Place) (k : Nat) (s : State) : s.KeepsRegisters (ranPrim p k s) :=
  ((entered_keeps p k s).trans (runPrim_keeps _ _)).trans (afterPrim_keeps _ _ _)

/-- A phase's own bookkeeping drives no line and emits nothing. -/
theorem afterPrim_observed (op : Instr) (k : Nat) (s : State) :
    (afterPrim op k s).drivers = s.drivers ∧ (afterPrim op k s).trace = s.trace := by
  cases op <;> unfold afterPrim <;> dsimp only <;> (repeat' split) <;> exact ⟨rfl, rfl⟩

/-- Entering a phase drives no line, emits nothing and opens or closes no transaction. -/
theorem entered_observed (p : Place) (k : Nat) (s : State) :
    (entered p k s).drivers = s.drivers ∧ (entered p k s).trace = s.trace
      ∧ (entered p k s).txnOpen = s.txnOpen := by
  unfold entered
  split
  · cases p.op s <;> exact ⟨rfl, rfl, rfl⟩
  · exact ⟨rfl, rfl, rfl⟩

/-- The move to the next place drives no line, emits nothing and takes no host access. -/
theorem nextPlace_observed (p : Place) (s : State) :
    (nextPlace p s).drivers = s.drivers ∧ (nextPlace p s).trace = s.trace
      ∧ (nextPlace p s).host = s.host ∧ (nextPlace p s).params = s.params := by
  cases p <;> unfold nextPlace <;> (try unfold State.gotoIfAcked) <;> (try unfold State.writeNext)
    <;> (try unfold State.readNext) <;> dsimp only <;> (repeat' split) <;> exact ⟨rfl, rfl, rfl, rfl⟩

/-- One primitive of a command is seen as the primitive alone. -/
theorem tick_observed (p : Place) (k : Nat) (s : State) :
    (tick p k s).drivers = (ranPrim p k s).drivers ∧ (tick p k s).trace = (ranPrim p k s).trace
      ∧ (tick p k s).host = s.host ∧ (tick p k s).params = s.params := by
  have hk := ranPrim_keeps p k s
  unfold tick
  split
  · exact ⟨rfl, rfl, hk.host, hk.params⟩
  · obtain ⟨hd, ht, hh, hp⟩ := nextPlace_observed p (ranPrim p k s)
    exact ⟨hd, ht, hh.trans hk.host, hp.trans hk.params⟩

/-- The place of a phase looks at `IDX` and `LEN` only. -/
theorem Place.op_congr (p : Place) {s t : State} (hi : t.idx = s.idx) (hl : t.len = s.len) :
    p.op t = p.op s := by
  cases p <;> simp [Place.op, hi, hl]

/-- The primitive at a position depends on the shift register by its bit 7 alone. -/
theorem primAt_bit (op : Instr) (k : Nat) (b : Byte) :
    primAt op k b = primAt op k (if b.getLsbD 7 then 0x80 else 0) := by
  cases op <;> simp only [primAt]
  cases b.getLsbD 7 <;> rfl

/-- Inside a command a step is one primitive, unless an access that does not wait comes first. -/
theorem step_path {s : State} {p : Place} {k : Nat} (hs : s.seq = .path p k)
    (hn : s.reentrant? = none) : step s = .next (tick p k s) := by
  simp [step, oneStep, hs, hn]

/-- The six ways in which a step answers a next state. -/
inductive StepTo (s t : State) : Prop where
  /-- No command runs and the host does nothing. -/
  | stay (hs : s.seq = .idle) (ht : t = s)
  /-- No command runs and the host's next access is taken. -/
  | host (hs : s.seq = .idle) (a : HostAccess) (ha : perform a s.hostTaken = .next t)
  /-- A command runs and an access that does not wait is taken. -/
  | reentrant (hs : s.seq ≠ .idle) (a : HostAccess) (ha : perform a s.hostTaken = .next t)
  /-- An operation is run as a whole. -/
  | whole (code : Byte) (i : Instr) (u : State) (hs : s.seq = .op code) (hd : decode code = .ok i)
      (he : exec i s = .next u) (ht : t = u.endCommand)
  /-- A command begins with its first primitive. -/
  | first (code : Byte) (c : Command) (hs : s.seq = .op code) (hd : decode code = .ok c.instr)
      (ht : t = tick (firstPlace c) 0 s)
  /-- A command goes on with one primitive. -/
  | prim (p : Place) (k : Nat) (hs : s.seq = .path p k) (ht : t = tick p k s)

theorem Instr.eq_of_command? {i : Instr} {c : Command} (h : i.command? = some c) : i = c.instr := by
  cases i <;> simp [Instr.command?] at h <;> subst h <;> rfl

theorem runInstr_cases {i : Instr} {s t : State} (h : runInstr i s = .next t) :
    (∃ u, exec i s = .next u ∧ t = u.endCommand) ∨ ∃ c, i = c.instr ∧ t = tick (firstPlace c) 0 s := by
  have whole : andEnd (exec i s) = .next t → ∃ u, exec i s = .next u ∧ t = u.endCommand := by
    intro h
    cases he : exec i s with
    | next u =>
      rw [he] at h
      injection h with h
      exact ⟨u, rfl, h.symm⟩
    | fault r => rw [he] at h; cases h
    | refused r => rw [he] at h; cases h
  unfold runInstr at h
  split at h
  · injection h with h
    exact .inr ⟨_, Instr.eq_of_command? ‹_›, h.symm⟩
  · exact .inl (whole h)
  · exact .inl (whole h)

/-- Every step that answers a next state is one of the six. -/
theorem step_cases {s t : State} (h : step s = .next t) : StepTo s t := by
  unfold step oneStep at h
  split at h
  · rename_i hs
    unfold hostStep at h
    split at h
    · injection h with h
      exact .stay hs h.symm
    · exact .host hs _ h
  · rename_i code hs
    split at h
    · exact .reentrant (by simp [hs]) _ h
    · unfold runCode at h
      split at h
      · rename_i i hd
        obtain ⟨u, he, ht⟩ | ⟨c, rfl, ht⟩ := runInstr_cases h
        · exact .whole code i u hs hd he ht
        · exact .first code c hs hd ht
      · cases h
  · rename_i p k hs
    split at h
    · exact .reentrant (by simp [hs]) _ h
    · injection h with h
      exact .prim p k hs h.symm

/-- An access taken while a command runs can only be a read or a write of `STATUS`. -/
theorem perform_busy {a : HostAccess} {s t : State} (hb : s.busy = true) (h : perform a s = .next t) :
    ∃ b, t = { s with rdata := b } := by
  cases a <;> simp [perform, hb, HostAccess.needsIdle, performIdle] at h
  · exact ⟨s.rdata, h ▸ rfl⟩
  · rename_i r
    cases r <;> simp [readReg] at h
    · exact ⟨_, h.symm⟩
    · exact ⟨_, h.symm⟩
    · exact ⟨_, h.symm⟩
    · split at h
      · injection h with h
        exact ⟨_, h.symm⟩
      · cases h

end Sys2Proof.Machine
end

