-- ==== Sys2Proof/Laws/Trace.lean ====
section
/-! SUPPORT. The laws of the observation: counts and markers of one list after another, and of the event
lists of the bus phases; where a WAIT follows a driver event. -/

namespace Sys2Proof.Machine

theorem Trace.drivers_append (d : Drivers) (l m : List Event) :
    Trace.drivers d (l ++ m) = Trace.drivers (Trace.drivers d l) m := by
  induction l generalizing d with
  | nil => rfl
  | cons e rest ih => exact ih (e.drivers d)

theorem Trace.starts_append (d : Drivers) (l m : List Event) :
    Trace.starts d (l ++ m) = Trace.starts d l + Trace.starts (Trace.drivers d l) m := by
  induction l generalizing d with
  | nil => simp [Trace.starts, Trace.drivers]
  | cons e rest ih => simp [Trace.starts, Trace.drivers, ih, Nat.add_assoc]

theorem Trace.stops_append (d : Drivers) (l m : List Event) :
    Trace.stops d (l ++ m) = Trace.stops d l + Trace.stops (Trace.drivers d l) m := by
  induction l generalizing d with
  | nil => simp [Trace.stops, Trace.drivers]
  | cons e rest ih => simp [Trace.stops, Trace.drivers, ih, Nat.add_assoc]

theorem Trace.waits_append (l m : List Event) : Trace.waits (l ++ m) = Trace.waits l + Trace.waits m :=
  List.countP_append

theorem Trace.samples_append (l m : List Event) :
    Trace.samples (l ++ m) = Trace.samples l + Trace.samples m :=
  List.countP_append

/-- What a list of events does from the driver states `d`: the drivers after it, the start markers
and the stop markers. -/
def Trace.effect (d : Drivers) (l : List Event) : Drivers × Nat × Nat :=
  (Trace.drivers d l, Trace.starts d l, Trace.stops d l)

/-- A clock cell entered with SCL low leaves SCL low and makes no marker. -/
theorem drivenCell_effect (d : Drv) (bit : Bool) :
    Trace.effect (d, .drivenLow) (drivenCell bit)
      = ((if bit then .released else .drivenLow, .drivenLow), 0, 0) := by
  cases d <;> cases bit <;> decide

theorem sampledCell_effect (d : Drv) (v : Bool) :
    Trace.effect (d, .drivenLow) (sampledCell v) = ((.released, .drivenLow), 0, 0) := by
  cases d <;> cases v <;> decide

theorem startEvents_effect (d : Drivers) :
    Trace.effect d startEvents
      = ((.drivenLow, .drivenLow), 1, if d = (.drivenLow, .released) then 1 else 0) := by
  obtain ⟨a, b⟩ := d
  cases a <;> cases b <;> decide

theorem stopEvents_effect (d : Drivers) :
    Trace.effect d stopEvents
      = ((.released, .released), if d = (.released, .released) then 1 else 0, 1) := by
  obtain ⟨a, b⟩ := d
  cases a <;> cases b <;> decide

/-- The effects of two lists one after the other. -/
theorem Trace.effect_append {d e f : Drivers} {l m : List Event} {a b a' b' : Nat}
    (hl : Trace.effect d l = (e, a, b)) (hm : Trace.effect e m = (f, a', b')) :
    Trace.effect d (l ++ m) = (f, a + a', b + b') := by
  simp only [Trace.effect, Prod.mk.injEq] at hl hm ⊢
  obtain ⟨hd, hs, hp⟩ := hl
  rw [Trace.drivers_append, Trace.starts_append, Trace.stops_append, hd, hs, hp]
  exact ⟨hm.1, by rw [hm.2.1], by rw [hm.2.2]⟩

/-- Cells entered with SCL low leave SCL low and make no marker, however many. -/
theorem drivenCells_effect (bits : List Bool) (d : Drv) :
    ∃ d', Trace.effect (d, .drivenLow) (bits.flatMap drivenCell) = ((d', .drivenLow), 0, 0) := by
  induction bits generalizing d with
  | nil => exact ⟨d, rfl⟩
  | cons bit rest ih =>
    obtain ⟨d', h⟩ := ih (if bit then .released else .drivenLow)
    exact ⟨d', Trace.effect_append (drivenCell_effect d bit) h⟩

theorem sampledCells_effect (bits : List Bool) (d : Drv) :
    ∃ d', Trace.effect (d, .drivenLow) (bits.flatMap sampledCell) = ((d', .drivenLow), 0, 0) := by
  induction bits generalizing d with
  | nil => exact ⟨d, rfl⟩
  | cons bit rest ih =>
    obtain ⟨d', h⟩ := ih .released
    exact ⟨d', Trace.effect_append (sampledCell_effect d bit) h⟩

/-- WBYTE's events, entered with SCL low (41_bus_conditions.md R103). -/
theorem wbyteEvents_effect (d : Drv) (b : Byte) (v : Bool) :
    Trace.effect (d, .drivenLow) (wbyteEvents b v) = ((.released, .drivenLow), 0, 0) := by
  obtain ⟨d', h⟩ := drivenCells_effect (byteBits b) d
  exact Trace.effect_append h (sampledCell_effect d' v)

/-- RBYTE's events, entered with SCL low (41_bus_conditions.md R103). -/
theorem rbyteEvents_effect (d : Drv) (b : Byte) (a : Bool) :
    Trace.effect (d, .drivenLow) (rbyteEvents b a) = ((.released, .drivenLow), 0, 0) := by
  obtain ⟨d', h⟩ := sampledCells_effect (byteBits b) d
  have closing : Trace.effect (if !a then Drv.released else .drivenLow, .drivenLow) [.sdaRel]
      = ((.released, .drivenLow), 0, 0) := by
    cases a <;> decide
  exact Trace.effect_append (Trace.effect_append h (drivenCell_effect d' (!a))) closing

theorem drivenCell_waits (bit : Bool) : Trace.waits (drivenCell bit) = 3 := by cases bit <;> decide

theorem sampledCell_waits (v : Bool) : Trace.waits (sampledCell v) = 3 := by cases v <;> decide

theorem wbyteEvents_length (b : Byte) (v : Bool) : (wbyteEvents b v).length = 55 := by
  simp [wbyteEvents, byteBits, drivenCell, sampledCell]

theorem rbyteEvents_length (b : Byte) (a : Bool) : (rbyteEvents b a).length = 63 := by
  simp [rbyteEvents, byteBits, drivenCell, sampledCell]

theorem wbyteEvents_waits (b : Byte) (v : Bool) : Trace.waits (wbyteEvents b v) = 27 := by
  simp only [wbyteEvents, byteBits, List.flatMap_cons, List.flatMap_nil, List.append_nil,
    Trace.waits_append, drivenCell_waits, sampledCell_waits]

theorem rbyteEvents_waits (b : Byte) (a : Bool) : Trace.waits (rbyteEvents b a) = 27 := by
  simp only [rbyteEvents, byteBits, List.flatMap_cons, List.flatMap_nil, List.append_nil,
    Trace.waits_append, drivenCell_waits, sampledCell_waits]
  rfl

/-! ## Where a WAIT follows a driver event (40_pin_driver.md R87) -/

theorem Trace.noWaitAfter_lt {ev : List Event} {k : Nat} (h : Trace.noWaitAfter ev k) : k < ev.length := by
  obtain ⟨x, hx, _⟩ := h
  exact (List.getElem?_eq_some_iff.mp hx).1

theorem Trace.noWaitAfter_of_pairAt {ev : List Event} {k : Nat} (h : Trace.pairAt ev k) :
    Trace.noWaitAfter ev k := by
  obtain ⟨x, y, hx, hy, hl, he⟩ := h
  refine ⟨x, hx, hl, fun hw => hl ?_⟩
  rw [hy] at hw
  rw [he, Option.some.inj hw]; rfl

/-- START's opening release of SDA stands before a release of SCL. -/
theorem Trace.not_startOpensAt_of_pairAt {ev : List Event} {k : Nat} (h : Trace.pairAt ev k) :
    ¬ Trace.startOpensAt ev k := by
  rintro ⟨pre, post, rfl, rfl⟩
  obtain ⟨x, y, hx, hy, -, he⟩ := h
  simp [startEvents] at hx hy
  subst hx hy; cases he

end Sys2Proof.Machine
end

