-- ==== Sys2Proof/Tests/Slice0.lean ====
section
/-! SUPPORT. The model's own tests: what WellFormed refuses, operation codes written bit by bit from
30_encoding.md R67 and R68, single operations on the vectors of 95_test_vectors.md, and for each
statement with hypotheses a state that meets them. -/

namespace Sys2Proof.Tests

open Sys2Proof Sys2Proof.Machine

/-! ## Helpers -/

/-- The environment of a vector: its answers, 0 a peer driving low, 1 nobody driving. -/
def env (l : List Nat) : List PeerDrive := l.map fun n => if n = 0 then .drivesLow else .released

/-- The state the vectors start from: after BEGIN, with an environment. -/
def afterBegin (l : List Nat) : State :=
  { State.reset with sdaDrv := .released, sclDrv := .released, peer := env l }

/-- The drivers `(Released, DrivenLow)`, in which the phases of a transaction are entered. -/
def inTxn (l : List Nat) : State := { afterBegin l with sclDrv := .drivenLow, txnOpen := true }

/-- The state an outcome answers, the given one where it answers none. -/
def nextOr (s : State) : Host.Outcome State Fault Refusal → State
  | .next t => t
  | .fault _ => s
  | .refused _ => s

/-- The state after an operation. -/
def after (i : Instr) (s : State) : State := nextOr s (exec i s)

/-- A character of the vectors' trace notation. -/
def sym : Event → Char
  | .sdaLow => 'd'
  | .sdaRel => 'D'
  | .sclLow => 'c'
  | .sclRel => 'C'
  | .wait => 'w'
  | .sample false => '0'
  | .sample true => '1'

/-- The events an operation emits, in the vectors' notation. -/
def shows (i : Instr) (s : State) : List Char := (after i s).trace.map sym

/-! ## WellFormed -/

theorem test_wf_tx_cell : HostAccess.wf (.writeTx 255 0) = false ∧ HostAccess.wf (.writeTx 254 0) = true := by
  decide

theorem test_wf_rx_cell : HostAccess.wf (.read (.rx 255)) = false ∧ HostAccess.wf (.read (.rx 254)) = true := by
  decide

theorem test_wf_pin : HostAccess.wf (.drivePin .sda true) = false := by decide

theorem test_wf_issuable :
    Instr.hostIssuable .start = false ∧ Instr.hostIssuable .sdaLow = false
      ∧ Instr.hostIssuable .writeReg = true := by
  decide

theorem test_wf_needsIdle :
    HostAccess.needsIdle (.writeTx 0 0) = true ∧ HostAccess.needsIdle (.read .status) = false := by
  decide

/-! ## Codes, bit by bit: level field, then operation field (R67, R68; V56 to V60) -/

theorem test_decode_level_p :
    decode 0b00000001 = .ok .sdaLow ∧ decode 0b00000010 = .ok .sdaRel ∧ decode 0b00000011 = .ok .sclLow
      ∧ decode 0b00000100 = .ok .sclRel ∧ decode 0b00000101 = .ok .sdaSample
      ∧ decode 0b00000110 = .ok .wait := by
  decide

theorem test_decode_level_s :
    decode 0b00010000 = .ok .start ∧ decode 0b00010001 = .ok .stop ∧ decode 0b00010010 = .ok .wbyte
      ∧ decode 0b00010100 = .ok (.rbyte false) ∧ decode 0b00010101 = .ok (.rbyte true) := by
  decide

theorem test_decode_level_c :
    decode 0b00100000 = .ok .begin ∧ decode 0b00100001 = .ok .write ∧ decode 0b00100010 = .ok .read
      ∧ decode 0b00100011 = .ok .writeReg ∧ decode 0b00100100 = .ok .readReg := by
  decide

/-- The first and the last code of every reserved range. -/
theorem test_decode_reserved :
    ∀ code ∈ [(0x00 : Byte), 0x07, 0x0F, 0x13, 0x16, 0x1F, 0x25, 0xFF],
      decode code = .error (.reserved code) := by
  decide

/-- The host's question: the decoder reads a row's word, and the next step runs it after reset. -/
theorem test_fetch_word :
    decodeTableWord 8 0x10 = some .start
      ∧ step (State.reset.withFetchWord 8 0x10)
          = .next (after .start (State.reset.withFetchWord 8 0x10)).endCommand := by
  exact ⟨rfl, rfl⟩

/-! ## Pin primitives (V1 to V9) -/

theorem test_sdaLow : (after .sdaLow (afterBegin [])).drivers = (.drivenLow, .released)
    ∧ Event.isStart (.released, .released) .sdaLow = true := by
  decide

theorem test_sdaRel : (after .sdaRel State.reset).drivers = (.released, .drivenLow)
    ∧ Event.isStop (.drivenLow, .released) .sdaRel = true
    ∧ Event.isStop (.drivenLow, .drivenLow) .sdaRel = false := by
  decide

theorem test_sclLow : (after .sclLow (afterBegin [])).drivers = (.released, .drivenLow) := by decide

theorem test_sclRel : (after .sclRel (inTxn [])).drivers = (.released, .released) := by decide

theorem test_sdaSample : shows .sdaSample (afterBegin [0]) = ['0'] ∧ shows .sdaSample (afterBegin [1]) = ['1'] := by
  decide

theorem test_wait : shows .wait State.reset = ['w'] := by decide

/-! ## Bus phases (V10 to V19) -/

theorem test_start : shows .start (afterBegin []) = ['D', 'C', 'w', 'd', 'w', 'c', 'w']
    ∧ (after .start (afterBegin [])).txnOpen = true := by
  decide

theorem test_stop : shows .stop (inTxn []) = ['d', 'w', 'C', 'w', 'D', 'w']
    ∧ (after .stop (inTxn [])).txnOpen = false := by
  decide

/-- V15, its trace: the cells of 0xA5 = 1010 0101, then the acknowledge cell. -/
theorem test_wbyte : shows .wbyte { inTxn [0] with shr := 0xA5 } =
    ['D', 'w', 'C', 'w', 'c', 'w'] ++ ['d', 'w', 'C', 'w', 'c', 'w'] ++ ['D', 'w', 'C', 'w', 'c', 'w']
      ++ ['d', 'w', 'C', 'w', 'c', 'w'] ++ ['d', 'w', 'C', 'w', 'c', 'w'] ++ ['D', 'w', 'C', 'w', 'c', 'w']
      ++ ['d', 'w', 'C', 'w', 'c', 'w'] ++ ['D', 'w', 'C', 'w', 'c', 'w']
      ++ ['D', 'w', 'C', 'w', '0', 'c', 'w'] := by
  decide

/-- V15 and V16, the results. -/
theorem test_wbyte_result : (after .wbyte { inTxn [0] with shr := 0xA5 }).ackf = true
    ∧ (after .wbyte { inTxn [0] with shr := 0xA5 }).shr = 0x00
    ∧ (after .wbyte { inTxn [1] with shr := 0x00 }).ackf = false := by
  decide

/-- V18 and V19, the bytes received. -/
theorem test_rbyte_result : (after (.rbyte true) (inTxn [0, 0, 1, 1, 1, 1, 0, 0])).shr = 0x3C
    ∧ (after (.rbyte false) (inTxn [1, 0, 0, 0, 0, 0, 0, 1])).shr = 0x81 := by
  decide

/-- V18, the end of the trace: the acknowledge cell and the closing release. -/
theorem test_rbyte_ack : (shows (.rbyte true) (inTxn [0, 0, 1, 1, 1, 1, 0, 0])).drop 56
      = ['d', 'w', 'C', 'w', 'c', 'w', 'D']
    ∧ (shows (.rbyte false) (inTxn [1, 0, 0, 0, 0, 0, 0, 1])).drop 56
      = ['D', 'w', 'C', 'w', 'c', 'w', 'D'] := by
  decide

/-! ## Commands (V20 to V43), address bytes (V50 to V55), STATUS (V61, V62) -/

/-- V50 to V55. -/
theorem test_addressByte : addressByte 0x3C false = 0x78 ∧ addressByte 0x3C true = 0x79
    ∧ addressByte 0x00 false = 0x00 ∧ addressByte 0x7F true = 0xFF ∧ addressByte 0x50 true = 0xA1
    ∧ addressByte 0x68 false = 0xD0 ∧ addressByte 0x68 true = 0xD1 := by
  decide

/-- V26. -/
theorem test_begin : shows .begin State.reset = ['D', 'C']
    ∧ Trace.stops (.drivenLow, .released) [.sdaRel, .sclRel] = 1
    ∧ Trace.stops (.drivenLow, .drivenLow) [.sdaRel, .sclRel] = 0 := by
  decide

/-- WRITE 0x3C of 0x00, 0xAF: V20 and V21. -/
def write2 (l : List Nat) : State := { afterBegin l with addr := 0x3C, len := 2, txbuf := [(1, 0xAF)] }

/-- V20 with V61. -/
theorem test_write : (after .write (write2 [0, 0, 0])).status = 0x36
    ∧ (after .write (write2 [0, 0, 0])).trace.length = 178 := by
  decide +kernel

/-- V21 with V62. -/
theorem test_write_nack : (after .write (write2 [1])).status = 0x30
    ∧ (after .write (write2 [1])).trace.length = 68 := by
  decide +kernel

/-- WRITE_REG 0x3C, 0x81, 0x7F: V27 and V28. -/
def writeReg3 (l : List Nat) : State := { afterBegin l with addr := 0x3C, reg := 0x81, val := 0x7F }

/-- V27: identical to WRITE 0x3C of 0x81, 0x7F. -/
theorem test_writeReg : (after .writeReg (writeReg3 [0, 0, 0])).ok = true
    ∧ (after .writeReg (writeReg3 [0, 0, 0])).trace
        = (after .write { write2 [0, 0, 0] with txbuf := [(0, 0x81), (1, 0x7F)] }).trace := by
  decide +kernel

/-- V28. -/
theorem test_writeReg_nack : (after .writeReg (writeReg3 [0, 1])).ok = false
    ∧ (after .writeReg (writeReg3 [0, 1])).trace.length = 123 := by
  decide +kernel

/-- READ 0x50 of `n` bytes. -/
def readN (n : Count) (l : List Nat) : State := { afterBegin l with addr := 0x50, len := n }

/-- The environment of V30: the peer acknowledges and sends 0x12, 0x34, 0x56. -/
def env30 : List Nat := [0, 0, 0, 0, 1, 0, 0, 1, 0, 0, 0, 1, 1, 0, 1, 0, 0, 0, 1, 0, 1, 0, 1, 1, 0]

/-- V30. -/
theorem test_read : (after .read (readN 3 env30)).rxbuf = [(0, 0x12), (1, 0x34), (2, 0x56)]
    ∧ (after .read (readN 3 env30)).trace.length = 257 := by
  decide +kernel

/-- V33 and V34: an absent peer, under both policies. -/
theorem test_read_nack : (after .read (readN 2 [1])).ok = false ∧ (after .read (readN 2 [1])).rxbuf = []
    ∧ (after .read { readN 2 (List.replicate 17 1) with
          params := ⟨.legacy, true, .operation⟩ }).rxbuf = [(0, 0xFF), (1, 0xFF)]
    ∧ (after .read { readN 2 (List.replicate 17 1) with
          params := ⟨.legacy, true, .operation⟩ }).ok = true := by
  decide +kernel

/-- READ_REG 0x68, 0x75. -/
def readReg1 (l : List Nat) : State := { afterBegin l with addr := 0x68, reg := 0x75, val := 0x11 }

/-- V40. -/
theorem test_readReg : (after .readReg (readReg1 [0, 0, 0, 1, 0, 1, 0, 0, 1, 0, 1])).val = 0xA5
    ∧ Trace.starts (.released, .released)
        (after .readReg (readReg1 [0, 0, 0, 1, 0, 1, 0, 0, 1, 0, 1])).trace = 2 := by
  decide +kernel

/-- V42 and V43. -/
theorem test_readReg_nack : (after .readReg (readReg1 [0, 1])).trace.length = 123
    ∧ (after .readReg (readReg1 [0, 0, 1])).trace.length = 185
    ∧ (after .readReg (readReg1 [0, 0, 1])).val = 0x11 ∧ (after .readReg (readReg1 [0, 0, 1])).ok = false := by
  decide +kernel

/-! ## The host -/

/-- V58 to V60, and a write while a command runs. -/
theorem test_writeCmd : (nextOr State.reset (perform (.writeCmd 0x23) State.reset)).busy = true
    ∧ perform (.writeCmd 0x13) State.reset = .refused (.reservedCode 0x13)
    ∧ perform (.writeCmd 0x10) State.reset = .refused (.notHostIssuable 0x10)
    ∧ perform (.writeCmd 0x20) { State.reset with busy := true } = .refused .reentrantAccess :=
  ⟨rfl, rfl, rfl, rfl⟩

/-! ## Witnesses: for each statement with hypotheses, states and operands that meet them -/

theorem witness_CodeFieldsNameLevelAndOperation :
    Instr.level .write = Instr.level .write ∧ opField (encode .write) = opField (encode .write) := by
  decide

/-- The boundaries of the reserved ranges, and an operation of each lower level. -/
theorem witness_ReservedCodesRefused :
    State.reset.busy = false ∧ decode 0x00 = .error (.reserved 0x00) ∧ decode 0xFF = .error (.reserved 0xFF)
      ∧ Instr.level .sdaLow ≠ .c ∧ Instr.level (.rbyte true) ≠ .c := by
  decide

theorem witness_LineLevelIsWiredAnd :
    lineLevel .drivenLow .released true true = false ∧ lineLevel .released .drivesLow true true = false
      ∧ lineLevel .released .released true false = true ∧ lineLevel .released .released false false = false := by
  decide

/-- SDA released, no peer driving it, no pull-up. -/
def floating : State := { afterBegin [1] with params := ⟨.abort, false, .operation⟩ }

theorem witness_SampleReadsDataLine :
    State.reset.sdaDrv = .drivenLow ∧ (afterBegin [0]).peerAt 0 = .drivesLow
      ∧ ((afterBegin [1]).sdaDrv = .released ∧ (afterBegin [1]).peerAt 0 = .released
          ∧ (afterBegin [1]).params.pullup = true)
      ∧ (floating.sdaDrv = .released ∧ floating.peerAt 0 = .released ∧ floating.params.pullup = false) := by
  decide

/-- A running command: `CMD`, `BUSY`, its position, `TXN_OPEN` set, the drivers `(Released, DrivenLow)`. -/
def running (code : Byte) (p : Place) (k : Nat) : State :=
  { inTxn [0, 0, 0] with cmd := code, busy := true, seq := .path p k, len := 2, bitcnt := 8 }

theorem witness_StopMakesStopCondition :
    (running 0x21 (.writeStop true) 0).Inv ∧ (running 0x21 (.writeStop true) 0).seq = .path (.writeStop true) 0
      ∧ (Place.writeStop true).op (running 0x21 (.writeStop true) 0) = .stop := by
  refine ⟨⟨rfl, rfl, by decide, rfl, by decide, rfl, ?_, ?_, ?_, ?_, rfl⟩, rfl, rfl⟩ <;>
    simp [running, inTxn, afterBegin, Place.op, sdaKnown, sclKnown, bitsKnown, Place.indexOk]

theorem witness_WbyteSendsByte :
    (inTxn [1]).peerAt 0 = .released ∧ (inTxn [1]).params.pullup = true
      ∧ (inTxn [0]).peerAt 0 = .drivesLow := by
  decide

theorem witness_RbyteReceivesByte :
    (∀ k < 8, (inTxn [1, 1, 1, 1, 1, 1, 1, 1]).peerAt k = .released)
      ∧ (inTxn [1, 1, 1, 1, 1, 1, 1, 1]).params.pullup = true
      ∧ ∀ k < 8, (inTxn [0, 0, 0, 0, 0, 0, 0, 0]).peerAt k = .drivesLow := by
  decide

/-- V19: the answers are the bits of 0x81. -/
theorem witness_ReceivedBitsAreTheSamples :
    ∀ k < 8, (inTxn [1, 0, 0, 0, 0, 0, 0, 1]).answer k
      = lineLevel (if (0x81 : Byte).getLsbD (7 - k) then .released else .drivenLow) .released true false := by
  decide

theorem witness_PhaseTable :
    (afterBegin []).drivers = (.released, .released) ∧ (inTxn []).drivers = (.released, .drivenLow)
      ∧ (inTxn []).txnOpen = true ∧ State.reset.drivers = (.drivenLow, .drivenLow) := by
  decide

/-- `LEN` = 0, 2 and 255. -/
theorem witness_WriteAllAcknowledged :
    (∀ k ≤ ({ afterBegin [0] with len := 0 } : State).len.toNat,
        ({ afterBegin [0] with len := 0 } : State).answer k = false)
      ∧ (∀ k ≤ (write2 [0, 0, 0]).len.toNat, (write2 [0, 0, 0]).answer k = false)
      ∧ ∀ k ≤ ({ afterBegin (List.replicate 256 0) with len := 255 } : State).len.toNat,
          ({ afterBegin (List.replicate 256 0) with len := 255 } : State).answer k = false := by
  decide +kernel

theorem witness_WriteAddressNack : (write2 [1]).answer 0 = true := by decide

/-- The first and the last data byte not acknowledged. -/
theorem witness_WriteDataNack :
    (0 < (write2 [0, 1]).len.toNat ∧ (∀ k ≤ 0, (write2 [0, 1]).answer k = false)
        ∧ (write2 [0, 1]).answer 1 = true)
      ∧ (1 < (write2 [0, 0, 1]).len.toNat ∧ (∀ k ≤ 1, (write2 [0, 0, 1]).answer k = false)
        ∧ (write2 [0, 0, 1]).answer 2 = true) := by
  decide

theorem witness_WriteRegAllAcknowledged : ∀ k < 3, (writeReg3 [0, 0, 0]).answer k = false := by decide

/-- Each of the three bytes the first not acknowledged. -/
theorem witness_WriteRegNack :
    (writeReg3 [1]).answer 0 = true
      ∧ ((∀ k < 1, (writeReg3 [0, 1]).answer k = false) ∧ (writeReg3 [0, 1]).answer 1 = true)
      ∧ ((∀ k < 2, (writeReg3 [0, 0, 1]).answer k = false) ∧ (writeReg3 [0, 0, 1]).answer 2 = true)
      ∧ [(writeReg3 [0, 0, 1]).addrWriteByte, 0x81, 0x7F][2]? = some 0x7F := by
  decide

/-- With a first byte that a buffer lists, and with one it does not. -/
theorem witness_WriteRegIsWriteOfTwoBytes :
    Mem.read [(0, 0x81), (1, 0x7F)] 0 = (writeReg3 []).reg ∧ Mem.read [(0, 0x81), (1, 0x7F)] 1 = (writeReg3 []).val
      ∧ Mem.read [(1, 0x7F)] 0 = ({ writeReg3 [] with reg := 0x00 } : State).reg := by
  decide

/-- Acknowledged with `LEN` = 0, and not acknowledged under policy `legacy`. -/
theorem witness_ReadReceivesBytes :
    (readN 0 [0]).answer 0 = false ∧ (readN 3 env30).answer 0 = false
      ∧ ({ readN 2 [1] with params := ⟨.legacy, true, .operation⟩ } : State).params.policy = .legacy := by
  decide

theorem witness_ReadAddressNackAborts :
    (readN 2 [1]).answer 0 = true ∧ (readN 2 [1]).params.policy = .abort := by
  decide

/-- `LEN` = 0, 3 and 255. -/
theorem witness_ReadFillsReceiveBuffer :
    Mem.wf (readN 3 env30).rxbuf = true ∧ (readN 3 env30).answer 0 = false
      ∧ (readN 0 [0]).answer 0 = false ∧ (readN 255 [0]).answer 0 = false
      ∧ 254 < (readN 255 [0]).len.toNat := by
  decide

theorem witness_ReadRegAllAcknowledged :
    ∀ k < 3, (readReg1 [0, 0, 0, 1, 0, 1, 0, 0, 1, 0, 1]).answer k = false := by
  decide

/-- Each of the three sent bytes the first not acknowledged. -/
theorem witness_ReadRegNack :
    (readReg1 [1]).answer 0 = true
      ∧ ((∀ k < 1, (readReg1 [0, 1]).answer k = false) ∧ (readReg1 [0, 1]).answer 1 = true)
      ∧ ((∀ k < 2, (readReg1 [0, 0, 1]).answer k = false) ∧ (readReg1 [0, 0, 1]).answer 2 = true)
      ∧ [startEvents ++ wbyteEvents 0xD0 true,
          startEvents ++ ackedBytes [0xD0] ++ wbyteEvents 0x75 true,
          startEvents ++ ackedBytes [0xD0, 0x75] ++ startEvents ++ wbyteEvents 0xD1 true][0]?
            = some (startEvents ++ wbyteEvents (readReg1 [1]).addrWriteByte true) :=
  ⟨by decide, by decide, by decide, rfl⟩

theorem witness_NackRaisedOn :
    (∃ k ≤ (write2 [1]).len.toNat, (write2 [1]).answer k = true)
      ∧ (∃ k < 3, (writeReg3 [0, 0, 1]).answer k = true)
      ∧ ((readN 2 [1]).params.policy = .abort ∧ (readN 2 [1]).answer 0 = true) := by
  decide

theorem witness_NackEntryIsPrecise :
    exec (Command.instr .write) (write2 [1]) = .next (after .write (write2 [1]))
      ∧ (after .write (write2 [1])).ok = false := by
  exact ⟨rfl, by decide +kernel⟩

/-- Every outcome the table of lengths names. -/
theorem witness_CommandLengths :
    (readReg1 [1]).answer 0 = true
      ∧ ((readReg1 [0, 1]).answer 0 = false ∧ (readReg1 [0, 1]).answer 1 = true)
      ∧ ((readReg1 [0, 0, 1]).answer 0 = false ∧ (readReg1 [0, 0, 1]).answer 1 = false
          ∧ (readReg1 [0, 0, 1]).answer 2 = true)
      ∧ (∀ k < 3, (readReg1 [0, 0, 0]).answer k = false)
      ∧ (writeReg3 [1]).answer 0 = true
      ∧ ((writeReg3 [0, 1]).answer 0 = false ∧ (writeReg3 [0, 1]).answer 1 = true)
      ∧ ((writeReg3 [0, 0, 1]).answer 0 = false ∧ (writeReg3 [0, 0, 1]).answer 1 = false
          ∧ (writeReg3 [0, 0, 1]).answer 2 = true)
      ∧ (∀ k < 3, (writeReg3 [0, 0, 0]).answer k = false)
      ∧ (∀ k ≤ (write2 [0, 0, 0]).len.toNat, (write2 [0, 0, 0]).answer k = false)
      ∧ (write2 [1]).answer 0 = true
      ∧ (1 < (write2 [0, 0, 1]).len.toNat ∧ (∀ k ≤ 1, (write2 [0, 0, 1]).answer k = false)
          ∧ (write2 [0, 0, 1]).answer 2 = true)
      ∧ (readN 3 env30).answer 0 = false
      ∧ ((readN 2 [1]).answer 0 = true ∧ (readN 2 [1]).params.policy = .abort) := by
  decide

theorem witness_OneStopPerTransaction :
    Command.readReg ≠ .begin ∧ (readReg1 [0, 0, 1]).drivers = (.released, .released)
      ∧ (readReg1 [0, 0, 1]).answer 0 = false ∧ (readReg1 [0, 0, 1]).answer 1 = false := by
  decide

/-- Every operation answers a next state, so each clause has its operations. -/
theorem witness_OperationsWriteOnlyTheirState (i : Instr) :
    exec i State.reset = .next (after i State.reset) := by
  cases i <;> rfl

/-- R87: an RBYTE's closing release where it meets STOP is a pair, START's opening release and
BEGIN's are driver events with no WAIT. -/
theorem witness_AdjacentDriverEvents :
    (Command.begin = .begin ∨ Command.begin = .write ∨ Command.begin = .writeReg)
      ∧ Trace.pairAt (rbyteEvents 0x81 false ++ stopEvents) 62
      ∧ Trace.noWaitAfter (rbyteEvents 0x81 false ++ stopEvents) 62
      ∧ Trace.noWaitAfter startEvents 0 ∧ Trace.noWaitAfter [.sdaRel, .sclRel] 0 :=
  ⟨.inl rfl, ⟨.sdaRel, .sdaLow, by decide⟩, ⟨.sdaRel, by decide⟩, ⟨.sdaRel, by decide⟩, ⟨.sdaRel, by decide⟩⟩

/-- `IDX` is written, and not written; READ fills `RXBUF`, and does not; two contents before it. -/
theorem witness_TransfersReadNoUnspecifiedRegister :
    Command.read ≠ .begin ∧ (Command.write = .write ∨ Command.write = .read)
      ∧ (write2 [0, 0, 0]).answer 0 = false ∧ (write2 [1]).answer 0 = true
      ∧ (after .read (readN 3 env30)).ok = true ∧ (after .read (readN 2 [1])).ok = false
      ∧ Mem.wf (readN 3 env30).rxbuf = true ∧ Mem.wf [(3, 0x42)] = true := by
  decide +kernel

theorem witness_WireCarriesTheTransfer :
    (write2 [0, 0, 0]).drivers = (.released, .released)
      ∧ (∀ k ≤ (write2 [0, 0, 0]).len.toNat, (write2 [0, 0, 0]).answer k = false)
      ∧ (∀ k < 3, (readReg1 [0, 0, 0]).answer k = false) ∧ (readN 1 [0]).answer 0 = false := by
  decide

theorem witness_EveryTransferIsOneTransaction :
    Command.readReg ≠ .begin ∧ (readReg1 [0, 0, 1]).drivers = (.released, .released) := by
  decide

/-- The last cell that exists, and the first that does not. -/
theorem witness_HostWritesOperands :
    State.reset.busy = false ∧ Mem.wf State.reset.txbuf = true ∧ cellExists 254 = true
      ∧ cellExists 255 = false := by
  decide

theorem witness_CommandAndStatusRegisters :
    State.reset.busy = false ∧ cellExists 254 = true ∧ cellExists 255 = false := by
  decide

theorem witness_ReentrantWritesRefused :
    ∃ s : State, s.busy = true ∧ s.seq ≠ .idle ∧ s.host = ⟨true, .writeCmd 0x20⟩ :: [] :=
  ⟨{ running 0x21 .writeAddr 0 with host := [⟨true, .writeCmd 0x20⟩] }, rfl, by decide, rfl⟩

theorem witness_ResetIsIdle : State.reset.seq = .idle ∧ State.reset.host = [] := by decide

/-- A command and a pin primitive at the head of `SEQ`, both grains, and a reserved code. -/
theorem witness_StepRunsTheDecodedOperation :
    (State.reset.atHead 0x21).seq = .op 0x21 ∧ decode 0x21 = .ok .write ∧ (State.reset.atHead 0x21).noReentry
      ∧ (State.reset.atHead 0x21).params.grain = .operation ∧ Instr.command? .wait = none
      ∧ exec .write (State.reset.atHead 0x21) = .next (after .write (State.reset.atHead 0x21))
      ∧ decodeTableWord 8 0x06 = some .wait ∧ decode 0x13 = .error (.reserved 0x13)
      ∧ (State.reset.atHead 0x13).seq = .op 0x13 ∧ (State.reset.atHead 0x13).noReentry
      ∧ ({ State.reset.atHead 0x21 with params := ⟨.abort, true, .primitive⟩ } : State).noReentry :=
  ⟨rfl, rfl, rfl, rfl, rfl, rfl, rfl, rfl, rfl, rfl, rfl⟩

/-- The first primitive of the address byte of a WRITE. -/
theorem running_inv : (running 0x21 .writeAddr 0).Inv := by
  refine ⟨rfl, rfl, by decide, rfl, by decide, rfl, ?_, ?_, ?_, ?_, rfl⟩ <;>
    simp [running, inTxn, afterBegin, Place.op, sdaKnown, sclKnown, bitsKnown, drivenCellScl, Place.indexOk]

/-- Its acknowledge sample, primitive 52, with the clock released. -/
def sampling : State := { running 0x21 .writeAddr 52 with sclDrv := .released }

theorem sampling_inv : sampling.Inv := by
  refine ⟨rfl, rfl, by decide, rfl, by decide, rfl, ?_, ?_, ?_, ?_, rfl⟩ <;>
    simp [sampling, running, inTxn, afterBegin, Place.op, sdaKnown, sclKnown, bitsKnown, sampledCellSda,
      sampledCellScl, Place.indexOk]

theorem witness_OneStepIsOnePrimitive :
    (running 0x21 .writeAddr 0).Inv ∧ (running 0x21 .writeAddr 0).seq = .path .writeAddr 0
      ∧ (running 0x21 .writeAddr 0).noReentry ∧ sampling.Inv ∧ sampling.seq = .path .writeAddr 52
      ∧ sampling.noReentry :=
  ⟨running_inv, rfl, rfl, sampling_inv, rfl, rfl⟩

theorem witness_IssueRunsTheCommand :
    ∃ s : State, s.seq = .idle ∧ s.busy = false ∧ s.params.grain = .operation
      ∧ s.host = ⟨false, .writeCmd (encode (Command.instr .begin))⟩ :: [⟨false, .read .status⟩]
      ∧ ({ s with host := [⟨false, .read .status⟩] } : State).noReentry :=
  ⟨{ State.reset with host := [⟨false, .writeCmd 0x20⟩, ⟨false, .read .status⟩] }, rfl, rfl, rfl, rfl, rfl⟩

theorem witness_StepsOnlyAppendEvents : step State.reset = .next State.reset := rfl

/-- After reset, and inside a command. -/
theorem witness_StepKeepsInvariant :
    State.reset.Inv ∧ step State.reset = .next State.reset ∧ sampling.Inv
      ∧ step sampling = .next (tick .writeAddr 52 sampling) :=
  ⟨⟨rfl, rfl, by decide, rfl, rfl⟩, rfl, sampling_inv, rfl⟩

theorem witness_BusStaysSettled :
    exec (Command.instr .begin) State.reset = .next (after .begin State.reset)
      ∧ (afterBegin []).Inv ∧ (afterBegin []).busSettled ∧ step (afterBegin []) = .next (afterBegin []) :=
  ⟨rfl, ⟨rfl, rfl, by decide, rfl, rfl⟩, rfl, rfl⟩

theorem witness_SamplesOnlyReleasedLines :
    sampling.Inv ∧ sampling.seq = .path .writeAddr 52 ∧ nextPrim .writeAddr 52 sampling = .sdaSample :=
  ⟨sampling_inv, rfl, rfl⟩

/-- The primitive of a START, and of a STOP, that changes SDA while SCL is released. -/
theorem witness_DataChangesOnlyWhileClockLow :
    (∃ s : State, s.Inv ∧ s.busSettled ∧ s.noReentry ∧ s.seq = .path .writeStart 3
        ∧ Place.writeStart.op s = .start)
      ∧ ∃ s : State, s.Inv ∧ s.busSettled ∧ s.noReentry ∧ s.seq = .path (.writeStop true) 4
        ∧ (Place.writeStop true).op s = .stop := by
  refine ⟨⟨{ running 0x21 .writeStart 3 with sclDrv := .released, txnOpen := false }, ?_, ?_, rfl, rfl, rfl⟩,
    ⟨{ running 0x21 (.writeStop true) 4 with sdaDrv := .drivenLow, sclDrv := .released }, ?_, ?_, rfl, rfl, rfl⟩⟩
  · refine ⟨rfl, rfl, by decide, rfl, by decide, rfl, ?_, ?_, ?_, ?_, rfl⟩ <;>
      simp [running, inTxn, afterBegin, Place.op, sdaKnown, sclKnown, bitsKnown, Place.indexOk]
  · simp [State.busSettled, running]
  · refine ⟨rfl, rfl, by decide, rfl, by decide, rfl, ?_, ?_, ?_, ?_, rfl⟩ <;>
      simp [running, inTxn, afterBegin, Place.op, sdaKnown, sclKnown, bitsKnown, Place.indexOk]
  · simp [State.busSettled, running]

theorem witness_SequencerRefinesCommands :
    ∃ s : State, s.seq = .op (encode (Command.instr .write)) ∧ s.params.grain = .primitive ∧ s.noReentry :=
  ⟨{ State.reset.atHead 0x21 with params := ⟨.abort, true, .primitive⟩ }, rfl, rfl, rfl⟩

end Sys2Proof.Tests
end

section
/-! # Operations as functions

Every operation answers a next state, so each is a function of the state, and a code names one. -/

namespace Sys2Proof.Machine

/-- The state an operation leaves. -/
def afterInstr (i : Instr) (s : State) : State :=
  match i with
  | .sdaLow => s.sdaLow
  | .sdaRel => s.sdaRel
  | .sclLow => s.sclLow
  | .sclRel => s.sclRel
  | .sdaSample => s.sdaSample
  | .wait => s.wait
  | .start => s.startCondition
  | .stop => s.stopCondition
  | .wbyte => s.sendByte s.shr
  | .rbyte a => s.recvByte a
  | .begin => (s.sdaRel.sclRel.setTxnOpen false).endCommand
  | .write => s.runWrite
  | .read => s.runRead
  | .writeReg => s.runWriteReg
  | .readReg => s.runReadReg

theorem exec_eq_afterInstr (i : Instr) (s : State) : exec i s = .next (afterInstr i s) := by
  cases i <;> rfl

/-- A next state that an operation answers is the one it leaves. -/
theorem afterInstr_of_exec {i : Instr} {s t : State} (h : exec i s = .next t) : afterInstr i s = t := by
  rw [exec_eq_afterInstr] at h
  exact Host.Outcome.next.inj h

/-- The decoder reads every operation from its code (30_encoding.md R68). -/
theorem decode_encode (i : Instr) : decode (encode i) = .ok i := by
  cases i with
  | rbyte a => cases a <;> rfl
  | _ => rfl

/-- The table of R68 read backwards, byte by byte. -/
theorem encode_of_decode? : ∀ (code : Byte) (i : Instr), decode? code = some i → encode i = code := by
  decide

/-- A code that is read as an operation is its code (30_encoding.md R71). -/
theorem encode_of_decode {code : Byte} {i : Instr} (h : decode code = .ok i) : encode i = code := by
  unfold decode at h
  split at h
  · cases h
    exact encode_of_decode? code i ‹_›
  · cases h

@[simp] theorem command?_instr (c : Command) : c.instr.command? = some c := by
  cases c <;> rfl

@[simp] theorem hostIssuable_instr (c : Command) : c.instr.hostIssuable = true := by
  cases c <;> rfl

end Sys2Proof.Machine
end

section
/-! # The transfer commands

READ as one record update. For the commands that end at the first byte not acknowledged: what holds of
each byte sent and of each way to end holds of the command (43_transfer_commands.md R125). -/

namespace Sys2Proof.Machine

/-- START and a byte sent, whole (41_bus_conditions.md R100, 42_byte_transfer.md R110). -/
theorem State.startByte_eq (s : State) (b : Byte) :
    s.startCondition.sendByte b =
      { s with sdaDrv := .released, sclDrv := .drivenLow, txnOpen := true, shr := 0, bitcnt := 8,
               ackf := !s.answer 0, smp := s.answer 0, peer := s.peer.tail, samples := s.samples + 1,
               trace := s.trace ++ (startEvents ++ wbyteEvents b (s.answer 0)) } := by
  rw [State.sendByte_eq, State.startCondition_eq, ← List.append_assoc]
  rfl

/-- `RXBUF` below `LEN` filled keeps its canonical form. -/
theorem State.rxFilled_wf {s : State} (h : Mem.wf s.rxbuf = true) {n : Nat} (hn : n ≤ Config.bufMax) :
    Mem.wf (s.rxFilled n) = true := by
  induction n with
  | zero => exact h
  | succ n ih => exact Mem.write_wf (ih (by omega)) (decide_eq_true hn)

/-- Each filled cell reads as the byte received for it. -/
theorem State.read_rxFilled_lt {s : State} (h : Mem.wf s.rxbuf = true) {n i : Nat}
    (hn : n ≤ Config.bufMax) (hi : i < n) : Mem.read (s.rxFilled n) i = s.readByte i := by
  induction n with
  | zero => omega
  | succ n ih =>
    rw [State.rxFilled]
    by_cases hin : i = n
    · rw [hin]
      exact Mem.read_write_same (State.rxFilled_wf h (by omega))
    · rw [Mem.read_write_other _ _ hin]
      exact ih (by omega) (by omega)

/-- A cell that no byte was received for reads as before. -/
theorem State.read_rxFilled_ge (s : State) {n i : Nat} (hi : n ≤ i) :
    Mem.read (s.rxFilled n) i = Mem.read s.rxbuf i := by
  induction n with
  | zero => rfl
  | succ n ih =>
    rw [State.rxFilled, Mem.read_write_other _ _ (by omega)]
    exact ih (by omega)

/-- No count is beyond the cells a buffer has (00_scope.md R6, 10_state.md R22). -/
theorem count_toNat_le_bufMax (n : Count) : n.toNat ≤ Config.bufMax := Nat.le_of_lt_succ n.isLt

/-- The state in which READ, begun in `s`, stands before it receives byte `j`: its address byte is sent
and `j` bytes are received. -/
def State.readAt (s : State) (j : Nat) : State :=
  { s with sdaDrv := .released, sclDrv := .drivenLow, txnOpen := true, ackf := !s.answer 0,
           smp := s.answer (8 * j), shr := if j = 0 then 0 else s.readByte (j - 1), bitcnt := 8,
           idx := BitVec.ofNat 8 j, rxbuf := s.rxFilled j, peer := s.peer.drop (8 * j + 1),
           samples := s.samples + (8 * j + 1),
           trace := s.trace ++ (startEvents ++ wbyteEvents s.addrReadByte (s.answer 0)
             ++ (List.range j).flatMap fun i =>
                  rbyteEvents (s.readByte i) (decide (i + 1 < s.len.toNat))) }

/-- The environment's answers from before byte `j` of a READ. -/
theorem State.answer_readAt (s : State) (j k : Nat) :
    (s.readAt j).answer k = s.answer (8 * j + 1 + k) :=
  State.answer_later (s := s) (t := s.readAt j) rfl rfl rfl k

/-- The byte a READ receives next is byte `j`. -/
theorem State.answerByte_readAt (s : State) (j : Nat) : (s.readAt j).answerByte 0 = s.readByte j := by
  simp only [State.answerByte, State.readByte, State.answer_readAt, Nat.add_assoc, Nat.add_comm 1]

/-- Every byte of a READ but the last is acknowledged (43_transfer_commands.md R123). -/
theorem ackWanted_ofNat {len : Count} {j : Nat} (hj : j < len.toNat) :
    ackWanted (BitVec.ofNat 8 j) len = decide (j + 1 < len.toNat) := by
  rw [ackWanted, decide_eq_decide]
  bv_omega

/-- One pass of READ's loop receives byte `j`. -/
theorem State.readLoop_readAt (s : State) {j : Nat} (hj : j < s.len.toNat) (n : Nat) :
    State.readLoop (n + 1) (s.readAt j) = State.readLoop n (s.readAt (j + 1)) := by
  have hlt := s.len.isLt
  have hidx : (BitVec.ofNat 8 j).toNat = j := by
    rw [BitVec.toNat_ofNat]
    omega
  have hack : ackWanted (s.readAt j).idx (s.readAt j).len = decide (j + 1 < s.len.toNat) :=
    ackWanted_ofNat hj
  rw [State.readLoop]
  congr 1
  simp only [hack, State.recvByte_eq, State.answerByte_readAt, State.answer_readAt, State.countByte,
    State.setIdx, State.setRx]
  simp only [State.readAt, State.mk.injEq, State.rxFilled, hidx, List.range_succ, List.flatMap_append,
    List.flatMap_cons, List.flatMap_nil, List.append_nil, List.append_assoc, List.drop_drop, Nat.mul_add,
    Nat.mul_one, Nat.add_assoc, Nat.reduceAdd, Nat.add_comm 1, BitVec.ofNat_add, true_and, and_true]
  exact ⟨rfl, rfl⟩

/-- READ's loop from byte `j` on receives the rest and stops. -/
theorem State.readLoop_eq (s : State) {j n : Nat} (hjn : j + n = s.len.toNat) :
    State.readLoop n (s.readAt j) = (s.readAt s.len.toNat).succeed := by
  induction n generalizing j with
  | zero =>
    obtain rfl : j = s.len.toNat := hjn
    rfl
  | succ n ih => rw [s.readLoop_readAt (by omega), ih (by omega)]

/-- READ goes on past its address byte (43_transfer_commands.md R123). -/
def State.readGoesOn (s : State) : Prop := s.answer 0 = false ∨ s.params.policy = .legacy

/-- The test after READ's address byte, in terms of the state before READ. -/
theorem State.readAborts_iff (s : State) :
    (s.startCondition.sendByte s.addrReadByte).readAborts = true ↔ ¬ s.readGoesOn := by
  simp only [State.readAborts, State.readGoesOn, State.startByte_eq]
  cases s.answer 0 <;> cases s.params.policy <;> decide

/-- READ past its address byte, whole (43_transfer_commands.md R123). -/
theorem State.runRead_of_goesOn {s : State} (h : s.readGoesOn) :
    s.runRead = (s.readAt s.len.toNat).succeed := by
  have hstart : (s.startCondition.sendByte s.addrReadByte).setIdx 0 = s.readAt 0 := by
    rw [State.startByte_eq]
    simp only [State.setIdx, State.readAt, List.range_zero, List.flatMap_nil, List.append_nil]
    simp [State.rxFilled]
  have hlen : (s.startCondition.sendByte s.addrReadByte).len = s.len := by
    rw [State.startByte_eq]
  rw [State.runRead, if_neg (by rw [s.readAborts_iff]; exact not_not_intro h), hstart, hlen]
  exact s.readLoop_eq (Nat.zero_add _)

/-- READ whose address byte ends it, whole (43_transfer_commands.md R123). -/
theorem State.runRead_of_not_goesOn {s : State} (h : ¬ s.readGoesOn) :
    s.runRead = (s.startCondition.sendByte s.addrReadByte).raiseNack := by
  rw [State.runRead, if_pos (s.readAborts_iff.mpr h)]

end Sys2Proof.Machine
end

section
/-! # A rule for the transfer commands

What holds of START, of each byte sent and of each way to end a transfer holds of every transfer command on
every path (43_transfer_commands.md R125). -/

namespace Sys2Proof.Machine

/-- What `P` before a command says of its end as `Q`: `P` outlives START and every byte sent, and both
ends of a transfer turn it into `Q`. -/
structure TransferRule (P Q : State → Prop) : Prop where
  start : ∀ {s}, P s → P s.startCondition
  send : ∀ {s} (b), P s → P (s.sendByte b)
  succeed : ∀ {s}, P s → Q s.succeed
  nack : ∀ {s}, P s → Q s.raiseNack

section
variable {P Q : State → Prop} (h : TransferRule P Q)
include h

/-- A byte sent that ends the command if it is not acknowledged. -/
theorem TransferRule.sendThen {k : State → State} (hk : ∀ {t}, P t → Q (k t)) {s : State} (b : Byte)
    (hs : P s) : Q (s.sendThen b k) := by
  unfold State.sendThen
  split
  · exact hk (h.send b hs)
  · exact h.nack (h.send b hs)

theorem TransferRule.writeReg {s : State} (hs : P s) : Q s.runWriteReg :=
  h.sendThen (fun ht => h.sendThen (fun hu => h.sendThen h.succeed _ hu) _ ht) _ (h.start hs)

theorem TransferRule.writeLoop (hidx : ∀ {s} (n), P s → P (s.setIdx n)) (n : Nat) {s : State} (hs : P s) :
    Q (State.writeLoop n s) := by
  induction n generalizing s with
  | zero => exact h.succeed hs
  | succ n ih => exact h.sendThen (fun ht => ih (hidx _ ht)) _ hs

theorem TransferRule.write (hidx : ∀ {s} (n), P s → P (s.setIdx n)) {s : State} (hs : P s) :
    Q s.runWrite :=
  h.sendThen (fun ht => h.writeLoop hidx _ (hidx 0 ht)) _ (h.start hs)

theorem TransferRule.readReg (hrecv : ∀ {s} (a), P s → P (s.recvByte a))
    (hval : ∀ {s} (b), P s → P (s.setVal b)) {s : State} (hs : P s) : Q s.runReadReg :=
  h.sendThen (fun ht => h.sendThen (fun hu =>
    h.sendThen (fun hv => h.succeed (hval _ (hrecv false hv))) _ (h.start hu)) _ ht) _ (h.start hs)

theorem TransferRule.read (hidx : ∀ {s} (n), P s → P (s.setIdx n))
    (hrecv : ∀ {s} (a), P s → P (s.recvByte a)) (hrx : ∀ {s} (i b), P s → P (s.setRx i b))
    {s : State} (hs : P s) : Q s.runRead := by
  have loop : ∀ (n : Nat) {t : State}, P t → Q (State.readLoop n t) := by
    intro n
    induction n with
    | zero => exact h.succeed
    | succ n ih => exact fun ht => ih (hidx _ (hrx _ _ (hrecv _ ht)))
  have haddr := h.send s.addrReadByte (h.start hs)
  unfold State.runRead
  dsimp only
  split
  · exact h.nack haddr
  · exact loop _ (hidx 0 haddr)

end

end Sys2Proof.Machine
end

section
/-! # One primitive of a phase

What is known of the lines, of `BITCNT` and of `TXN_OPEN` before each primitive of a phase, and at its
end, follows from what is known before the primitive before it. -/

namespace Sys2Proof.Machine

/-- Primitive `k` of the phase `op` has run, with what the phase does after it. -/
def phaseStep (op : Instr) (k : Nat) (s : State) : State :=
  afterPrim op k (runPrim (primAt op k s.shr) s)

theorem ranPrim_eq_phaseStep (p : Place) (k : Nat) (s : State) :
    ranPrim p k s = phaseStep (p.op s) k (entered p k s) := rfl

/-- What is known of `SDA_DRV` after a primitive, where `d` is known before it. -/
def sdaAfter (i : Instr) (d : Option Drv) : Option Drv :=
  match i with
  | .sdaLow => some .drivenLow
  | .sdaRel => some .released
  | _ => d

/-- What is known of `SCL_DRV` after a primitive, where `d` is known before it. -/
def sclAfter (i : Instr) (d : Option Drv) : Option Drv :=
  match i with
  | .sclLow => some .drivenLow
  | .sclRel => some .released
  | _ => d

/-- What is known of `SDA_DRV` after a primitive holds. -/
theorem runPrim_sdaDrv {i : Instr} {s : State} {d : Option Drv} (h : ∀ x, d = some x → s.sdaDrv = x) :
    ∀ x, sdaAfter i d = some x → (runPrim i s).sdaDrv = x := by
  intro x hx
  cases i with
  | sdaLow => exact Option.some.inj hx
  | sdaRel => exact Option.some.inj hx
  | _ => exact h x hx

/-- What is known of `SCL_DRV` after a primitive holds. -/
theorem runPrim_sclDrv {i : Instr} {s : State} {d : Option Drv} (h : ∀ x, d = some x → s.sclDrv = x) :
    ∀ x, sclAfter i d = some x → (runPrim i s).sclDrv = x := by
  intro x hx
  cases i with
  | sclLow => exact Option.some.inj hx
  | sclRel => exact Option.some.inj hx
  | _ => exact h x hx

/-- The invariant's tables of the lines agree with the primitives at position `k` of `op`. -/
def linesFollow (op : Instr) (k : Nat) (shr : Byte) : Prop :=
  (∀ d, sdaKnown op (k + 1) = some d → sdaAfter (primAt op k shr) (sdaKnown op k) = some d)
    ∧ ∀ d, sclKnown op (k + 1) = some d → sclAfter (primAt op k shr) (sclKnown op k) = some d

/-- The tables of the lines, checked position by position; a WBYTE's byte matters by its bit 7 only. -/
theorem linesFollow_of_lt {op : Instr} {k : Nat} (hk : k < primCount op) (shr : Byte) :
    linesFollow op k shr := by
  have start : ∀ k < 7, linesFollow .start k 0 := by unfold linesFollow; decide
  have stop : ∀ k < 6, linesFollow .stop k 0 := by unfold linesFollow; decide
  have wbyte : ∀ k < 55, ∀ bit : Bool, linesFollow .wbyte k (if bit then 0x80 else 0) := by
    unfold linesFollow; decide
  have rbyte : ∀ k < 63, ∀ a : Bool, linesFollow (.rbyte a) k 0 := by unfold linesFollow; decide
  have begin : ∀ k < 2, linesFollow .begin k 0 := by unfold linesFollow; decide
  cases op with
  | start => exact start k hk
  | stop => exact stop k hk
  | wbyte =>
    unfold linesFollow
    rw [primAt_bit]
    exact wbyte k hk _
  | rbyte a => exact rbyte k hk a
  | begin => exact begin k hk
  | _ => exact ⟨nofun, nofun⟩

/-- What the invariant says of the lines and of `BITCNT` before primitive `k` of the phase `op`. -/
structure State.Known (s : State) (op : Instr) (k : Nat) : Prop where
  sda : ∀ d, sdaKnown op k = some d → s.sdaDrv = d
  scl : ∀ d, sclKnown op k = some d → s.sclDrv = d
  bits : ∀ n, bitsKnown op k = some n → s.bitcnt.toNat = n

theorem phaseStep_drivers (op : Instr) (k : Nat) (s : State) :
    (phaseStep op k s).drivers = (runPrim (primAt op k s.shr) s).drivers :=
  (afterPrim_observed _ _ _).1

theorem runPrim_bitcnt (i : Instr) (s : State) : (runPrim i s).bitcnt = s.bitcnt := by
  cases i <;> rfl

theorem runPrim_txnOpen (i : Instr) (s : State) : (runPrim i s).txnOpen = s.txnOpen := by
  cases i <;> rfl

/-- `TXN_OPEN` after a primitive: only the last one of START, STOP and BEGIN writes it. -/
def txnAfter (op : Instr) (k : Nat) (f : Bool) : Bool :=
  match op with
  | .start => if k = 6 then true else f
  | .stop => if k = 5 then false else f
  | .begin => if k = 1 then false else f
  | _ => f

theorem phaseStep_txnOpen (op : Instr) (k : Nat) (s : State) :
    (phaseStep op k s).txnOpen = txnAfter op k s.txnOpen := by
  rw [← runPrim_txnOpen (primAt op k s.shr) s, phaseStep]
  generalize runPrim (primAt op k s.shr) s = t
  cases op <;> unfold afterPrim txnAfter <;> dsimp only <;> (repeat' split) <;> rfl

/-- A data cell of WBYTE counts one bit, at its last primitive (42_byte_transfer.md R110). -/
theorem phaseStep_wbyte_bitcnt {s : State} {k : Nat} (hk : k < 55) (h : s.bitcnt.toNat = min (k / 6) 8) :
    (phaseStep .wbyte k s).bitcnt.toNat = min ((k + 1) / 6) 8 := by
  rw [← runPrim_bitcnt (primAt .wbyte k s.shr) s] at h
  unfold phaseStep afterPrim
  generalize runPrim (primAt .wbyte k s.shr) s = t at h
  dsimp only
  split
  · split
    · simp only [State.countBit, State.setBitcnt_bitcnt, State.shiftSent, State.setShr_bitcnt]
      bv_omega
    · omega
  · split
    · simp only [State.latchAck, State.setAckf_bitcnt]
      omega
    · omega

/-- A data cell of RBYTE counts one bit, at its last primitive (42_byte_transfer.md R111). -/
theorem phaseStep_rbyte_bitcnt {s : State} {k : Nat} {a : Bool} (hk : k < 63)
    (h : s.bitcnt.toNat = min (k / 7) 8) :
    (phaseStep (.rbyte a) k s).bitcnt.toNat = min ((k + 1) / 7) 8 := by
  rw [← runPrim_bitcnt (primAt (.rbyte a) k s.shr) s] at h
  unfold phaseStep afterPrim
  generalize runPrim (primAt (.rbyte a) k s.shr) s = t at h
  dsimp only
  split
  · split
    · simp only [State.shiftSampled, State.setShr_bitcnt]
      omega
    · split
      · simp only [State.countBit, State.setBitcnt_bitcnt]
        bv_omega
      · omega
  · omega

/-- How many bits are counted before primitive `k` once the phase has been entered, which clears the
count. -/
def bitsEntered (op : Instr) (k : Nat) : Option Nat :=
  match op with
  | .wbyte => some (min (k / 6) 8)
  | .rbyte _ => some (min (k / 7) 8)
  | _ => none

theorem bitsKnown_succ (op : Instr) (k : Nat) : bitsKnown op (k + 1) = bitsEntered op (k + 1) := by
  cases op <;> rfl

/-- A byte transfer that has been entered has counted the data cells behind it. -/
theorem State.Known.bitcnt_entered {s : State} {p : Place} {k n : Nat} (h : s.Known (p.op s) k)
    (hn : bitsEntered (p.op s) k = some n) : (entered p k s).bitcnt.toNat = n := by
  unfold entered
  split
  · subst k
    revert hn
    cases p.op s with
    | wbyte => exact Option.some.inj
    | rbyte a => exact Option.some.inj
    | _ => nofun
  · obtain ⟨j, rfl⟩ := Nat.exists_eq_succ_of_ne_zero ‹_›
    exact h.bits n (by rw [bitsKnown_succ, hn])

/-- A primitive of a byte transfer leaves `BITCNT` as the next one finds it. -/
theorem phaseStep_counts {s : State} {op : Instr} {k : Nat} (hk : k < primCount op)
    (h : ∀ n, bitsEntered op k = some n → s.bitcnt.toNat = n) :
    ∀ n, bitsKnown op (k + 1) = some n → (phaseStep op k s).bitcnt.toNat = n := by
  intro n hn
  cases op with
  | wbyte => exact (phaseStep_wbyte_bitcnt hk (h _ rfl)).trans (Option.some.inj hn)
  | rbyte a => exact (phaseStep_rbyte_bitcnt hk (h _ rfl)).trans (Option.some.inj hn)
  | _ => cases hn

/-- Each primitive of a phase leaves what is known before the next one, and what is known at the end. -/
theorem State.Known.ranPrim {s : State} {p : Place} {k : Nat} (h : s.Known (p.op s) k)
    (hk : k < primCount (p.op s)) : (ranPrim p k s).Known (p.op s) (k + 1) := by
  obtain ⟨hsda, hscl⟩ := linesFollow_of_lt hk (entered p k s).shr
  obtain ⟨hd, -, -⟩ := entered_observed p k s
  obtain ⟨hda, hcl⟩ := Prod.mk.inj hd
  obtain ⟨hda', hcl'⟩ := Prod.mk.inj (phaseStep_drivers (p.op s) k (entered p k s))
  rw [ranPrim_eq_phaseStep]
  exact
    { sda := fun d hx => hda'.trans (runPrim_sdaDrv (fun y hy => hda.trans (h.sda y hy)) d (hsda d hx))
      scl := fun d hx => hcl'.trans (runPrim_sclDrv (fun y hy => hcl.trans (h.scl y hy)) d (hscl d hx))
      bits := phaseStep_counts hk fun _ => h.bitcnt_entered }

/-- A phase that is no byte transfer leaves `BITCNT` as it was. -/
theorem ranPrim_bitcnt {s : State} {p : Place} {k : Nat} (h : bitsEntered (p.op s) k = none) :
    (ranPrim p k s).bitcnt = s.bitcnt := by
  have hentered : (entered p k s).bitcnt = s.bitcnt := by
    unfold entered
    split
    · revert h
      cases p.op s with
      | wbyte => nofun
      | rbyte a => nofun
      | _ => exact fun _ => rfl
    · rfl
  have hafter : ∀ t, (afterPrim (p.op s) k t).bitcnt = t.bitcnt := by
    intro t
    revert h
    cases p.op s with
    | wbyte => nofun
    | rbyte a => nofun
    | start => intro; unfold afterPrim; dsimp only; split <;> rfl
    | stop => intro; unfold afterPrim; dsimp only; split <;> rfl
    | begin => intro; unfold afterPrim; dsimp only; split <;> rfl
    | _ => exact fun _ => rfl
  rw [ranPrim, hafter, runPrim_bitcnt, hentered]

/-- `BITCNT` is 0 to 8 after every primitive (10_state.md R15). -/
theorem State.Known.bitcnt_le {s : State} {p : Place} {k : Nat} (h : s.Known (p.op s) k)
    (hk : k < primCount (p.op s)) (hs : s.bitcnt.toNat ≤ 8) : (Machine.ranPrim p k s).bitcnt.toNat ≤ 8 := by
  have counted := (h.ranPrim hk).bits
  have unchanged := ranPrim_bitcnt (s := s) (p := p) (k := k)
  revert counted unchanged
  cases p.op s with
  | wbyte => exact fun counted _ => counted _ rfl ▸ min_le_right ..
  | rbyte a => exact fun counted _ => counted _ rfl ▸ min_le_right ..
  | _ => exact fun _ unchanged => unchanged rfl ▸ hs

end Sys2Proof.Machine
end

section
/-! # Every step keeps the invariant -/

namespace Sys2Proof.Machine

/-- What the invariant says of a state at every position. -/
structure State.Sound (s : State) : Prop where
  tx : Mem.wf s.txbuf = true
  rx : Mem.wf s.rxbuf = true
  bits : s.bitcnt.toNat ≤ 8

theorem State.inv_iff (s : State) : s.Inv ↔ s.Sound ∧ s.seqOk :=
  ⟨fun ⟨ht, hr, hb, hq⟩ => ⟨⟨ht, hr, hb⟩, hq⟩, fun ⟨⟨ht, hr, hb⟩, hq⟩ => ⟨ht, hr, hb, hq⟩⟩

/-- A sound block in which no command runs meets the invariant. -/
theorem State.Sound.inv_endCommand {s : State} (h : s.Sound) (ht : s.txnOpen = false) : s.endCommand.Inv :=
  ⟨h.tx, h.rx, h.bits, rfl, ht⟩

/-- A position inside a command, its parts grouped. -/
theorem State.atPlace_iff (s : State) (p : Place) (k : Nat) :
    s.atPlace p k ↔ k < primCount (p.op s) ∧ s.txnOpen = p.opened ∧ s.Known (p.op s) k ∧ p.indexOk s
      ∧ s.cmd = encode p.command.instr :=
  ⟨fun ⟨hk, ht, hsda, hscl, hbits, hi, hc⟩ => ⟨hk, ht, ⟨hsda, hscl, hbits⟩, hi, hc⟩,
    fun ⟨hk, ht, ⟨hsda, hscl, hbits⟩, hi, hc⟩ => ⟨hk, ht, hsda, hscl, hbits, hi, hc⟩⟩

/-- The block between two phases of the transfer command `c`: inside its transaction, SCL low. -/
structure State.Between (s : State) (c : Command) : Prop extends s.Sound where
  busy : s.busy = true
  txn : s.txnOpen = true
  scl : s.sclDrv = .drivenLow
  cmd : s.cmd = encode c.instr

theorem Place.primCount_pos (p : Place) (s : State) : 0 < primCount (p.op s) := by
  cases p <;> exact Nat.succ_pos _

/-- With SCL low, and SDA released but at a WBYTE, the lines are as every phase is entered. -/
theorem known_zero {s : State} {op : Instr} (hscl : s.sclDrv = .drivenLow)
    (hsda : op = .wbyte ∨ s.sdaDrv = .released) : s.Known op 0 := by
  have low : ∀ d, some Drv.drivenLow = some d → s.sclDrv = d := fun d hd => hscl.trans (Option.some.inj hd)
  cases op with
  | wbyte => exact ⟨nofun, low, nofun⟩
  | stop | rbyte =>
    have released : ∀ d, some Drv.released = some d → s.sdaDrv = d :=
      fun d hd => (hsda.resolve_left nofun).trans (Option.some.inj hd)
    exact ⟨released, low, nofun⟩
  | _ => exact ⟨nofun, nofun, nofun⟩

/-- The sequencer goes to a place of the same command, inside the transaction. -/
theorem State.Between.goto_inv {s : State} {c : Command} (h : s.Between c) {p : Place} (hc : p.command = c)
    (ho : p.opened = true) (hi : p.indexOk s) (hsda : p.op s = .wbyte ∨ s.sdaDrv = .released) :
    (s.goto p).Inv := by
  have hknown : (s.goto p).Known (p.op s) 0 := known_zero h.scl hsda
  have hplace : (s.goto p).atPlace p 0 :=
    (State.atPlace_iff _ _ _).mpr ⟨p.primCount_pos _, h.txn.trans ho.symm, hknown, hi, hc ▸ h.cmd⟩
  exact ⟨h.tx, h.rx, h.bits, h.busy, hplace⟩

/-- The two ways on from a byte sent. -/
theorem State.Between.gotoIfAcked_inv {s : State} {c : Command} (h : s.Between c) {p fail : Place}
    (hc : p.command = c ∧ fail.command = c) (ho : p.opened = true ∧ fail.opened = true)
    (hi : p.indexOk s ∧ fail.indexOk s) (hsda : s.sdaDrv = .released) : (s.gotoIfAcked p fail).Inv := by
  unfold State.gotoIfAcked
  split
  · exact h.goto_inv hc.1 ho.1 hi.1 (.inr hsda)
  · exact h.goto_inv hc.2 ho.2 hi.2 (.inr hsda)

/-- WRITE's loop test enters another byte only while `IDX < LEN` (10_state.md R25). -/
theorem State.Between.writeNext_inv {s : State} (h : s.Between .write) (hsda : s.sdaDrv = .released) :
    s.writeNext.Inv := by
  unfold State.writeNext
  split
  · exact h.goto_inv rfl rfl (fun _ => of_decide_eq_true ‹_›) (.inr hsda)
  · exact h.goto_inv rfl rfl nofun (.inr hsda)

/-- READ's loop test enters another byte only while `IDX < LEN` (10_state.md R25). -/
theorem State.Between.readNext_inv {s : State} (h : s.Between .read) (hsda : s.sdaDrv = .released) :
    s.readNext.Inv := by
  unfold State.readNext
  split
  · exact h.goto_inv rfl rfl (fun _ => of_decide_eq_true ‹_›) (.inr hsda)
  · exact h.goto_inv rfl rfl nofun (.inr hsda)

/-- The last primitive of the phase of place `p` has run. -/
structure State.AtEnd (s : State) (p : Place) : Prop extends s.Sound where
  busy : s.busy = true
  txn : s.txnOpen = txnAfter (p.op s) (primCount (p.op s) - 1) p.opened
  known : s.Known (p.op s) (primCount (p.op s))
  closed : ∀ a, p.op s = .rbyte a → s.sdaDrv = .released
  index : p.indexOk s
  cmd : s.cmd = encode p.command.instr

/-- After a START the lines are low and the transaction is open. -/
theorem State.AtEnd.between_of_start {s : State} {p : Place} (h : s.AtEnd p) (hop : p.op s = .start) :
    s.Between p.command :=
  { h with
    txn := by rw [h.txn, hop]; rfl
    scl := h.known.scl _ (by rw [hop]; rfl) }

/-- A WBYTE inside a transaction leaves SDA released and SCL low (41_bus_conditions.md R103). -/
theorem State.AtEnd.between_of_wbyte {s : State} {p : Place} (h : s.AtEnd p) (hop : p.op s = .wbyte)
    (ho : p.opened = true) : s.Between p.command ∧ s.sdaDrv = .released :=
  ⟨{ h with
     txn := by rw [h.txn, hop]; exact ho
     scl := h.known.scl _ (by rw [hop]; rfl) },
    h.known.sda _ (by rw [hop]; rfl)⟩

/-- An RBYTE inside a transaction leaves SDA released and SCL low (41_bus_conditions.md R103). -/
theorem State.AtEnd.between_of_rbyte {s : State} {p : Place} {a : Bool} (h : s.AtEnd p)
    (hop : p.op s = .rbyte a) (ho : p.opened = true) : s.Between p.command ∧ s.sdaDrv = .released :=
  ⟨{ h with
     txn := by rw [h.txn, hop]; exact ho
     scl := h.known.scl _ (by rw [hop]; rfl) },
    h.closed a hop⟩

/-- A cell of `RXBUF` that READ fills exists (10_state.md R22). -/
theorem cellExists_of_lt {i n : Count} (h : i < n) : cellExists i.toNat = true :=
  decide_eq_true (Nat.lt_of_lt_of_le h (count_toNat_le_bufMax n))

/-- The move from a phase to the next place keeps the invariant (43_transfer_commands.md R125). -/
theorem State.AtEnd.nextPlace_inv {s : State} {p : Place} (h : s.AtEnd p) : (nextPlace p s).Inv := by
  cases p with
  | beginReleases => exact h.inv_endCommand h.txn
  | writeStop ok | readStop ok | writeRegStop ok | readRegStop ok =>
    have hsound : (s.setOk ok).Sound := { h with }
    exact hsound.inv_endCommand h.txn
  | writeStart | readStart | writeRegStart | readRegStart | readRegRestart =>
    exact (h.between_of_start rfl).goto_inv rfl rfl nofun (.inl rfl)
  | writeAddr =>
    obtain ⟨hb, hsda⟩ := h.between_of_wbyte rfl rfl
    unfold nextPlace
    dsimp only
    split
    · have hb' : (s.setIdx 0).Between .write := { hb with }
      exact hb'.writeNext_inv hsda
    · exact hb.goto_inv rfl rfl nofun (.inr hsda)
  | writeData =>
    obtain ⟨hb, hsda⟩ := h.between_of_wbyte rfl rfl
    unfold nextPlace
    dsimp only
    split
    · have hb' : s.countByte.Between .write := { hb with }
      exact hb'.writeNext_inv hsda
    · exact hb.goto_inv rfl rfl nofun (.inr hsda)
  | readAddr =>
    obtain ⟨hb, hsda⟩ := h.between_of_wbyte rfl rfl
    unfold nextPlace
    dsimp only
    split
    · exact hb.goto_inv rfl rfl nofun (.inr hsda)
    · have hb' : (s.setIdx 0).Between .read := { hb with }
      exact hb'.readNext_inv hsda
  | readData =>
    obtain ⟨hb, hsda⟩ := h.between_of_rbyte rfl rfl
    have hcell := cellExists_of_lt (h.index (.inr rfl))
    have hb' : (s.setRx s.idx.toNat s.shr).countByte.Between .read :=
      { hb with rx := Mem.write_wf hb.rx hcell }
    exact hb'.readNext_inv hsda
  | writeRegAddr | writeRegReg | writeRegVal | readRegAddrWrite | readRegReg | readRegAddrRead =>
    obtain ⟨hb, hsda⟩ := h.between_of_wbyte rfl rfl
    exact hb.gotoIfAcked_inv ⟨rfl, rfl⟩ ⟨rfl, rfl⟩ ⟨nofun, nofun⟩ hsda
  | readRegData =>
    obtain ⟨hb, hsda⟩ := h.between_of_rbyte rfl rfl
    have hb' : (s.setVal s.shr).Between .readReg := { hb with }
    exact hb'.goto_inv rfl rfl nofun (.inr hsda)

/-- RBYTE ends with a release of SDA (42_byte_transfer.md R111). -/
theorem ranPrim_rbyte_closed {s : State} {p : Place} {a : Bool} (h : p.op s = .rbyte a) :
    (ranPrim p 62 s).sdaDrv = .released := by
  rw [ranPrim_eq_phaseStep, h]
  rfl

/-- After each primitive but the last, `TXN_OPEN` is as it was before the phase. -/
theorem txnAfter_of_lt {op : Instr} {k : Nat} (h : k + 1 < primCount op) (f : Bool) : txnAfter op k f = f := by
  cases op with
  | start => exact if_neg (Nat.ne_of_lt (Nat.lt_of_succ_lt_succ h))
  | stop => exact if_neg (Nat.ne_of_lt (Nat.lt_of_succ_lt_succ h))
  | begin => exact if_neg (Nat.ne_of_lt (Nat.lt_of_succ_lt_succ h))
  | _ => rfl

theorem ranPrim_txnOpen (p : Place) (k : Nat) (s : State) :
    (ranPrim p k s).txnOpen = txnAfter (p.op s) k s.txnOpen := by
  rw [ranPrim_eq_phaseStep, phaseStep_txnOpen, (entered_observed p k s).2.2]

/-- One primitive of a command keeps the invariant. -/
theorem tick_inv {s : State} {p : Place} {k : Nat} (hs : s.Sound) (hb : s.busy = true)
    (hp : s.atPlace p k) : (tick p k s).Inv := by
  obtain ⟨hk, htxn, hknown, hidx, hcmd⟩ := (State.atPlace_iff _ _ _).mp hp
  have keeps := ranPrim_keeps p k s
  have hop : p.op (ranPrim p k s) = p.op s := p.op_congr keeps.idx keeps.len
  have hidx' : p.indexOk (ranPrim p k s) := by
    unfold Place.indexOk
    rw [keeps.idx, keeps.len]
    exact hidx
  have hknown' := hknown.ranPrim hk
  have sound : (ranPrim p k s).Sound :=
    ⟨keeps.txbuf ▸ hs.tx, keeps.rxbuf ▸ hs.rx, hknown.bitcnt_le hk hs.bits⟩
  have htxn' : (ranPrim p k s).txnOpen = txnAfter (p.op s) k p.opened := by rw [ranPrim_txnOpen, htxn]
  unfold tick
  split
  · rename_i hlt
    have hplace : (ranPrim p k s).atPlace p (k + 1) :=
      (State.atPlace_iff _ _ _).mpr
        ⟨hop ▸ hlt, htxn'.trans (txnAfter_of_lt hlt _), hop ▸ hknown', hidx', keeps.cmd.trans hcmd⟩
    exact ⟨sound.tx, sound.rx, sound.bits, keeps.busy.trans hb, hplace⟩
  · have hlast : primCount (p.op s) = k + 1 := by omega
    have hend : (ranPrim p k s).AtEnd p :=
      { sound with
        busy := keeps.busy.trans hb
        txn := by rw [hop, hlast]; exact htxn'
        known := by rw [hop, hlast]; exact hknown'
        closed := fun a ha => by
          rw [hop] at ha
          rw [ha] at hlast
          obtain rfl : k = 62 := by injection hlast.symm
          exact ranPrim_rbyte_closed ha
        index := hidx'
        cmd := keeps.cmd.trans hcmd }
    exact hend.nextPlace_inv

/-- A command's first primitive stands where its issue leaves the block. -/
theorem atPlace_firstPlace {s : State} {c : Command} (ht : s.txnOpen = false) (hc : s.cmd = encode c.instr) :
    s.atPlace (firstPlace c) 0 := by
  refine (State.atPlace_iff _ _ _).mpr ⟨Place.primCount_pos _ _, ?_, ?_, ?_, ?_⟩
  · cases c <;> exact ht
  · cases c <;> exact ⟨nofun, nofun, nofun⟩
  · cases c <;> exact nofun
  · cases c <;> exact hc

/-- A transfer keeps the block sound and closes its transaction, on every path. -/
theorem sound_transferRule :
    TransferRule State.Sound (fun t => t.Sound ∧ t.txnOpen = false) where
  start h := by rw [State.startCondition_eq]; exact { h with }
  send b h := by rw [State.sendByte_eq]; exact { h with bits := le_refl 8 }
  succeed h := by rw [State.succeed_eq]; exact ⟨{ h with }, rfl⟩
  nack h := by rw [State.raiseNack_eq]; exact ⟨{ h with }, rfl⟩

/-- READ keeps the block sound: the cells of `RXBUF` it fills exist. -/
theorem State.Sound.read {s : State} (h : s.Sound) : s.runRead.Sound ∧ s.runRead.txnOpen = false := by
  by_cases hgo : s.readGoesOn
  · rw [State.runRead_of_goesOn hgo]
    exact sound_transferRule.succeed ⟨h.tx, State.rxFilled_wf h.rx (count_toNat_le_bufMax _), le_refl 8⟩
  · rw [State.runRead_of_not_goesOn hgo]
    exact sound_transferRule.nack (sound_transferRule.send _ (sound_transferRule.start h))

/-- A command run as a whole keeps the block sound and leaves no transaction open. -/
theorem State.Sound.command {s : State} (h : s.Sound) (c : Command) :
    (afterInstr c.instr s).Sound ∧ (afterInstr c.instr s).txnOpen = false := by
  have hidx : ∀ {t : State} (n : Count), t.Sound → (t.setIdx n).Sound := fun _ ht => { ht with }
  have hrecv : ∀ {t : State} (a : Bool), t.Sound → (t.recvByte a).Sound := fun a ht => by
    rw [State.recvByte_eq]
    exact { ht with bits := le_refl 8 }
  have hval : ∀ {t : State} (b : Byte), t.Sound → (t.setVal b).Sound := fun _ ht => { ht with }
  cases c with
  | begin => exact ⟨{ h with }, rfl⟩
  | write => exact sound_transferRule.write hidx h
  | read => exact h.read
  | writeReg => exact sound_transferRule.writeReg h
  | readReg => exact sound_transferRule.readReg hrecv hval h

/-- A write of `CMD` that is not refused issues a command: `SEQ` stands at its head. -/
theorem writeCmd_cases {code : Byte} {s t : State} (h : writeCmd code s = .next t) :
    ∃ c : Command, code = encode c.instr ∧ t = s.issued code := by
  unfold writeCmd at h
  split at h
  · cases h
  · rename_i i hd
    split at h
    · rename_i hi
      obtain ⟨c, hc⟩ := Option.isSome_iff_exists.mp hi
      obtain rfl := Instr.eq_of_command? hc
      exact ⟨c, (encode_of_decode hd).symm, (Host.Outcome.next.inj h).symm⟩
    · cases h

/-- A read changes `rdata` and nothing of the block. -/
theorem readReg_cases {r : HostReg} {s t : State} (h : readReg r s = .next t) :
    ∃ b, t = { s with rdata := b } := by
  cases r with
  | rx i =>
    unfold readReg at h
    dsimp only at h
    split at h
    · exact ⟨_, (Host.Outcome.next.inj h).symm⟩
    · cases h
  | status | cmd | val => exact ⟨_, (Host.Outcome.next.inj h).symm⟩

theorem perform_of_idle (a : HostAccess) {s : State} (hb : s.busy = false) :
    perform a s = performIdle a s := by
  simp [perform, hb]

/-- An access taken while no command runs keeps the invariant. -/
theorem perform_idle_inv {a : HostAccess} {s t : State} (hs : s.Inv) (hq : s.seq = .idle)
    (h : perform a s = .next t) : t.Inv := by
  obtain ⟨sound, hseq⟩ := s.inv_iff.mp hs
  simp only [State.seqOk, hq] at hseq
  obtain ⟨hb, htxn⟩ := hseq
  have stays : ∀ u : State,
      u.Sound → u.seq = s.seq → u.busy = s.busy → u.txnOpen = s.txnOpen → u.Inv := by
    intro u hu hus hub hut
    refine u.inv_iff.mpr ⟨hu, ?_⟩
    simp only [State.seqOk, hus, hq, hub, hb, hut, htxn, and_self]
  rw [perform_of_idle a hb] at h
  cases a with
  | writeAddr v | writeLen v | writeReg v | writeVal v | writeStatus v =>
    obtain rfl := Host.Outcome.next.inj h
    exact stays _ { sound with } rfl rfl rfl
  | writeTx i v =>
    simp only [performIdle, writeTx] at h
    split at h
    · obtain rfl := Host.Outcome.next.inj h
      exact stays _ { sound with tx := Mem.write_wf sound.tx ‹_› } rfl rfl rfl
    · cases h
  | writeCmd code =>
    obtain ⟨c, rfl, rfl⟩ := writeCmd_cases h
    exact ⟨sound.tx, sound.rx, sound.bits, rfl, htxn, rfl, c, rfl⟩
  | read r =>
    obtain ⟨b, rfl⟩ := readReg_cases h
    exact stays _ { sound with } rfl rfl rfl
  | drivePin l low => cases h

/-- While a command runs `BUSY` = 1 (10_state.md R19). -/
theorem State.Inv.busy_of_running {s : State} (h : s.Inv) (hq : s.seq ≠ .idle) : s.busy = true := by
  obtain ⟨-, -, -, hseq⟩ := h
  unfold State.seqOk at hseq
  split at hseq
  · exact absurd ‹_› hq
  · exact hseq.1
  · exact hseq.1

/-- At the head of an operation stands a command, just issued. -/
theorem State.Inv.command_of_op {s : State} (h : s.Inv) {code : Byte} (hq : s.seq = .op code) :
    s.busy = true ∧ s.txnOpen = false ∧ s.cmd = code ∧ ∃ c : Command, code = encode c.instr := by
  obtain ⟨-, -, -, hseq⟩ := h
  simpa only [State.seqOk, hq] using hseq

/-- Settles O51, by the six ways in which a step answers a next state. -/
theorem stepKeepsInvariant : Obligations.StepKeepsInvariant := by
  intro s t hs hstep
  obtain ⟨sound, hseq⟩ := s.inv_iff.mp hs
  cases step_cases hstep with
  | stay hq ht => exact ht ▸ hs
  | host hq a ha => exact perform_idle_inv (s := s.hostTaken) hs hq ha
  | reentrant hq a ha =>
    obtain ⟨b, rfl⟩ := perform_busy (s := s.hostTaken) (hs.busy_of_running hq) ha
    exact hs
  | whole code i u hq hd he ht =>
    obtain ⟨-, -, -, c, rfl⟩ := hs.command_of_op hq
    obtain rfl : c.instr = i := Except.ok.inj ((decode_encode _).symm.trans hd)
    obtain ⟨hu, htxn⟩ := sound.command c
    rw [afterInstr_of_exec he] at hu htxn
    exact ht ▸ hu.inv_endCommand htxn
  | first code c hq hd ht =>
    obtain ⟨hb, htxn, hcmd, -⟩ := hs.command_of_op hq
    exact ht ▸ tick_inv sound hb (atPlace_firstPlace htxn (hcmd.trans (encode_of_decode hd).symm))
  | prim p k hq ht =>
    simp only [State.seqOk, hq] at hseq
    exact ht ▸ tick_inv sound hseq.1 hseq.2

/-- Settles O50: with no command running the invariant asks for the reset values alone. -/
theorem resetMeetsInvariant : Obligations.ResetMeetsInvariant :=
  State.reset.inv_iff.mpr ⟨⟨rfl, rfl, Nat.zero_le 8⟩, rfl, rfl⟩

end Sys2Proof.Machine
end

section
/-! # What an operation leaves unchanged (10_state.md R29) -/

namespace Sys2Proof.Machine

/-- `s` with every register that each transfer command may write blanked. -/
def State.transferBlanked (s : State) : State :=
  { s with sdaDrv := .released, sclDrv := .released, shr := 0, bitcnt := 0, ackf := false, ok := false,
           txnOpen := false, busy := false, seq := .idle, smp := false, peer := [], samples := 0, trace := [] }

/-- `s` with every register that operation `i` may write blanked: the table of R29. -/
def blanked (i : Instr) (s : State) : State :=
  match i with
  | .sdaLow | .sdaRel => { s with sdaDrv := .released, trace := [] }
  | .sclLow | .sclRel => { s with sclDrv := .released, trace := [] }
  | .sdaSample => { s with smp := false, peer := [], samples := 0, trace := [] }
  | .wait => { s with trace := [] }
  | .start | .stop => { s with sdaDrv := .released, sclDrv := .released, txnOpen := false, trace := [] }
  | .wbyte => { s with sdaDrv := .released, sclDrv := .released, shr := 0, bitcnt := 0, ackf := false,
                       smp := false, peer := [], samples := 0, trace := [] }
  | .rbyte _ => { s with sdaDrv := .released, sclDrv := .released, shr := 0, bitcnt := 0, smp := false,
                         peer := [], samples := 0, trace := [] }
  | .begin => { s with sdaDrv := .released, sclDrv := .released, txnOpen := false, busy := false,
                       seq := .idle, trace := [] }
  | .write => s.transferBlanked.setIdx 0
  | .read => { s.transferBlanked with idx := 0, rxbuf := [] }
  | .writeReg => s.transferBlanked
  | .readReg => s.transferBlanked.setVal 0

/-- What is seen of a state through the blanks stays as it is in every transfer. -/
theorem blanked_transferRule {α : Type} (f : State → α) (a : α) :
    TransferRule (fun t => f t.transferBlanked = a) (fun t => f t.transferBlanked = a) where
  start h := by rw [State.startCondition_eq]; exact h
  send b h := by rw [State.sendByte_eq]; exact h
  succeed h := by rw [State.succeed_eq]; exact h
  nack h := by rw [State.raiseNack_eq]; exact h

/-- An operation changes no register but those of its blanks. -/
theorem blanked_afterInstr (i : Instr) (s : State) : blanked i (afterInstr i s) = blanked i s := by
  cases i with
  | wbyte => exact (congrArg (blanked .wbyte) (s.sendByte_eq s.shr)).trans rfl
  | rbyte a => exact (congrArg (blanked (.rbyte a)) (s.recvByte_eq a)).trans rfl
  | write => exact (blanked_transferRule (·.setIdx 0) _).write (fun _ h => h) rfl
  | writeReg => exact (blanked_transferRule id _).writeReg rfl
  | readReg =>
    exact (blanked_transferRule (·.setVal 0) _).readReg
      (fun a h => by rw [State.recvByte_eq]; exact h) (fun _ h => h) rfl
  | read =>
    exact (blanked_transferRule (fun t : State => ({ t with idx := 0, rxbuf := [] } : State)) _).read
      (fun _ h => h) (fun a h => by rw [State.recvByte_eq]; exact h) (fun _ _ h => h) rfl
  | _ => rfl

/-- An operation keeps whatever is seen through its blanks. -/
theorem afterInstr_keeps {α : Type} (f : State → α) {i : Instr} (hf : ∀ u, f (blanked i u) = f u)
    (s : State) : f (afterInstr i s) = f s := by
  rw [← hf, blanked_afterInstr, hf]

/-! ### The registers each operation may write -/

section
variable {i : Instr} (s : State)

theorem blanked_val (h : i ≠ .readReg) : (blanked i s).val = s.val := by
  cases i with
  | readReg => exact absurd rfl h
  | _ => rfl

theorem blanked_rxbuf (h : i ≠ .read) : (blanked i s).rxbuf = s.rxbuf := by
  cases i with
  | read => exact absurd rfl h
  | _ => rfl

theorem blanked_idx (h : i ≠ .write) (h' : i ≠ .read) : (blanked i s).idx = s.idx := by
  cases i with
  | write => exact absurd rfl h
  | read => exact absurd rfl h'
  | _ => rfl

theorem blanked_ok (h : i.level ≠ .c ∨ i = .begin) : (blanked i s).ok = s.ok := by
  cases i with
  | write | read | writeReg | readReg => exact absurd h (by decide)
  | _ => rfl

theorem blanked_ackf (hw : i ≠ .wbyte) (h : i.level ≠ .c ∨ i = .begin) : (blanked i s).ackf = s.ackf := by
  cases i with
  | wbyte => exact absurd rfl hw
  | write | read | writeReg | readReg => exact absurd h (by decide)
  | _ => rfl

theorem blanked_shr_bitcnt (h : i.level = .p ∨ i = .start ∨ i = .stop ∨ i = .begin) :
    (blanked i s).shr = s.shr ∧ (blanked i s).bitcnt = s.bitcnt := by
  cases i with
  | write | read | writeReg | readReg | wbyte => exact absurd h (by decide)
  | rbyte a => simp [Instr.level] at h
  | _ => exact ⟨rfl, rfl⟩

theorem blanked_txnOpen (h : i.level = .p ∨ i = .wbyte ∨ i = .rbyte true ∨ i = .rbyte false) :
    (blanked i s).txnOpen = s.txnOpen := by
  cases i with
  | start | stop | begin | write | read | writeReg | readReg => exact absurd h (by decide)
  | _ => rfl

theorem blanked_sdaDrv (h : i = .sclLow ∨ i = .sclRel ∨ i = .sdaSample ∨ i = .wait) :
    (blanked i s).sdaDrv = s.sdaDrv := by
  obtain rfl | rfl | rfl | rfl := h <;> rfl

theorem blanked_sclDrv (h : i = .sdaLow ∨ i = .sdaRel ∨ i = .sdaSample ∨ i = .wait) :
    (blanked i s).sclDrv = s.sclDrv := by
  obtain rfl | rfl | rfl | rfl := h <;> rfl

theorem blanked_busy_seq (h : i.level ≠ .c) :
    (blanked i s).busy = s.busy ∧ (blanked i s).seq = s.seq := by
  cases i with
  | begin | write | read | writeReg | readReg => exact absurd rfl h
  | _ => exact ⟨rfl, rfl⟩

end

/-- Settles O37: each register an operation does not write is seen through its blanks. -/
theorem operationsWriteOnlyTheirState : Obligations.OperationsWriteOnlyTheirState := by
  intro i s t h
  obtain rfl := afterInstr_of_exec h
  have keeps {α : Type} (f : State → α) (hf : ∀ u, f (blanked i u) = f u) := afterInstr_keeps f hf s
  refine ⟨keeps State.addr ?_, keeps State.len ?_, keeps State.reg ?_, keeps State.txbuf ?_,
    keeps State.cmd ?_, keeps State.rdata ?_, keeps State.host ?_, keeps State.params ?_,
    fun h => keeps State.val fun u => blanked_val u h,
    fun h => keeps State.rxbuf fun u => blanked_rxbuf u h,
    fun h h' => keeps State.idx fun u => blanked_idx u h h',
    fun h => keeps State.ok fun u => blanked_ok u h,
    fun hw h => keeps State.ackf fun u => blanked_ackf u hw h,
    fun h => ⟨keeps State.shr fun u => (blanked_shr_bitcnt u h).1,
      keeps State.bitcnt fun u => (blanked_shr_bitcnt u h).2⟩,
    fun h => keeps State.txnOpen fun u => blanked_txnOpen u h,
    fun h => keeps State.sdaDrv fun u => blanked_sdaDrv u h,
    fun h => keeps State.sclDrv fun u => blanked_sclDrv u h,
    fun h => ⟨keeps State.busy fun u => (blanked_busy_seq u h).1,
      keeps State.seq fun u => (blanked_busy_seq u h).2⟩⟩
  all_goals
    intro u
    cases i <;> rfl

end Sys2Proof.Machine
end

section
/-! # What a transfer does not read (10_state.md R28), and what READ leaves in `RXBUF` -/

namespace Sys2Proof.Machine

/-- Settles O28: READ leaves the filled buffer. -/
theorem readFillsReceiveBuffer : Obligations.ReadFillsReceiveBuffer := by
  intro s hwf hgo
  have hlen := count_toNat_le_bufMax s.len
  exact ⟨(s.readAt s.len.toNat).succeed, congrArg Host.Outcome.next (State.runRead_of_goesOn hgo),
    State.rxFilled_wf hwf hlen, fun i hi => State.read_rxFilled_lt hwf hlen hi, fun i hi => s.read_rxFilled_ge hi⟩

/-- A change `upd` of the state that a byte sent carries along and does not look at; at a failure it
leaves the two ends related by `Q`. -/
structure CarriedUpdate (upd : State → State) (Q : State → State → Prop) : Prop where
  start : ∀ s, (upd s).startCondition = upd s.startCondition
  send : ∀ s b, (upd s).sendByte b = upd (s.sendByte b)
  ackf : ∀ s, (upd s).ackf = s.ackf
  nack : ∀ s, Q s.raiseNack (upd s).raiseNack

/-- A byte sent carries the change to what comes after it. -/
theorem CarriedUpdate.sendThen {upd : State → State} {Q : State → State → Prop} (h : CarriedUpdate upd Q)
    {k k' : State → State} (hk : ∀ t, Q (k t) (k' (upd t))) (s : State) (b : Byte) :
    Q (s.sendThen b k) ((upd s).sendThen b k') := by
  unfold State.sendThen
  rw [h.send, h.ackf]
  split
  · exact hk _
  · exact h.nack _

/-! ### `OK` -/

/-- `OK` before a transfer ends with it. -/
theorem carried_ok (g : Bool) : CarriedUpdate (·.setOk g) Eq where
  start _ := rfl
  send s b := by rw [State.sendByte_eq, State.sendByte_eq]; rfl
  ackf _ := rfl
  nack _ := rfl

theorem State.succeed_setOk (s : State) (g : Bool) : s.succeed = (s.setOk g).succeed := rfl

theorem State.writeLoop_setOk (n : Nat) (s : State) (g : Bool) :
    State.writeLoop n s = State.writeLoop n (s.setOk g) := by
  induction n generalizing s with
  | zero => exact s.succeed_setOk g
  | succ n ih => exact (carried_ok g).sendThen (fun t => ih t.countByte) s _

theorem State.readLoop_setOk (n : Nat) (s : State) (g : Bool) :
    State.readLoop n s = State.readLoop n (s.setOk g) := by
  induction n generalizing s with
  | zero => exact s.succeed_setOk g
  | succ n ih =>
    have hrecv : ∀ a, (s.setOk g).recvByte a = (s.recvByte a).setOk g := fun a => by
      rw [State.recvByte_eq, State.recvByte_eq]; rfl
    simp only [State.readLoop, State.setOk_idx, State.setOk_len, hrecv]
    exact ih _

theorem State.receiveVal_setOk (s : State) (g : Bool) : s.receiveVal = (s.setOk g).receiveVal := by
  simp only [State.receiveVal, State.recvByte_eq, State.succeed_eq]
  rfl

/-- `s'` differs from `s` only in registers that START and the byte after it overwrite, and in `OK`. -/
structure State.SameTransfer (s s' : State) (g : Bool) : Prop where
  startByte : ∀ b, s'.startCondition.sendByte b = (s.startCondition.sendByte b).setOk g
  addr : s'.addr = s.addr

section
variable {s s' : State} {g : Bool} (h : s.SameTransfer s' g)
include h

theorem State.SameTransfer.sendAddr {k : State → State} (hk : ∀ t, k t = k (t.setOk g)) :
    s.startCondition.sendThen s.addrWriteByte k = s'.startCondition.sendThen s'.addrWriteByte k := by
  have haddr : s'.addrWriteByte = s.addrWriteByte := by rw [State.addrWriteByte, h.addr]; rfl
  unfold State.sendThen
  rw [haddr, h.startByte, State.setOk_ackf]
  generalize s.startCondition.sendByte s.addrWriteByte = t
  split
  · exact hk t
  · rfl

theorem State.SameTransfer.read : s.runRead = s'.runRead := by
  have haddr : s'.addrReadByte = s.addrReadByte := by rw [State.addrReadByte, h.addr]; rfl
  unfold State.runRead
  dsimp only
  rw [haddr, h.startByte]
  generalize s.startCondition.sendByte s.addrReadByte = t
  have haborts : (t.setOk g).readAborts = t.readAborts := rfl
  rw [haborts]
  split
  · rfl
  · exact State.readLoop_setOk _ _ g

theorem State.SameTransfer.write : s.runWrite = s'.runWrite := by
  unfold State.runWrite
  exact h.sendAddr fun t => State.writeLoop_setOk t.len.toNat (t.setIdx 0) g

theorem State.SameTransfer.writeReg : s.runWriteReg = s'.runWriteReg := by
  unfold State.runWriteReg
  exact h.sendAddr fun t => (carried_ok g).sendThen (fun u =>
    (carried_ok g).sendThen (fun v => v.succeed_setOk g) u u.val) t t.reg

theorem State.SameTransfer.readReg : s.runReadReg = s'.runReadReg := by
  unfold State.runReadReg
  exact h.sendAddr fun t => (carried_ok g).sendThen (fun u =>
    (carried_ok g).sendThen (fun v => v.receiveVal_setOk g) u.startCondition u.addrReadByte) t t.reg

/-- What START and the byte after it overwrite, and `OK`, make no difference to a transfer. -/
theorem State.SameTransfer.afterInstr {c : Command} (hc : c ≠ .begin) :
    afterInstr c.instr s = afterInstr c.instr s' := by
  cases c with
  | begin => exact absurd rfl hc
  | read => exact h.read
  | write => exact h.write
  | writeReg => exact h.writeReg
  | readReg => exact h.readReg

end

/-! ### `IDX`, `VAL` and `RXBUF` -/

/-- What WRITE leaves where `IDX` is changed before it. -/
theorem runWrite_setIdx (s : State) (n : Count) :
    (s.setIdx n).runWrite = s.runWrite.setIdx (if s.answer 0 = false then s.runWrite.idx else n) := by
  have hsend : (s.setIdx n).startCondition.sendByte s.addrWriteByte
      = (s.startCondition.sendByte s.addrWriteByte).setIdx n := by
    rw [State.startByte_eq, State.startByte_eq]
    rfl
  have hack : (s.startCondition.sendByte s.addrWriteByte).ackf = !s.answer 0 := by rw [State.startByte_eq]
  have haddr : (s.setIdx n).addrWriteByte = s.addrWriteByte := rfl
  unfold State.runWrite State.sendThen
  rw [haddr, hsend, State.setIdx_ackf, hack]
  generalize s.startCondition.sendByte s.addrWriteByte = t
  cases s.answer 0 <;> rfl

/-- What READ leaves where `IDX` is changed before it. -/
theorem runRead_setIdx (s : State) (n : Count) [Decidable s.readGoesOn] :
    (s.setIdx n).runRead = s.runRead.setIdx (if s.readGoesOn then s.runRead.idx else n) := by
  have hsend : (s.setIdx n).startCondition.sendByte s.addrReadByte
      = (s.startCondition.sendByte s.addrReadByte).setIdx n := by
    rw [State.startByte_eq, State.startByte_eq]
    rfl
  have haborts := s.readAborts_iff
  have haddr : (s.setIdx n).addrReadByte = s.addrReadByte := rfl
  unfold State.runRead
  dsimp only
  rw [haddr, hsend]
  generalize s.startCondition.sendByte s.addrReadByte = t at haborts ⊢
  have haborts' : (t.setIdx n).readAborts = t.readAborts := rfl
  rw [haborts']
  split
  · rw [if_neg (haborts.mp ‹_›)]
    rfl
  · rw [if_pos (not_not.mp (mt haborts.mpr ‹_›))]
    rfl

/-- `VAL` before READ_REG stays where the command fails. -/
theorem carried_val (v : Byte) :
    CarriedUpdate (·.setVal v) (fun a b => b = a.setVal (if a.ok then a.val else v)) where
  start _ := rfl
  send s b := by rw [State.sendByte_eq, State.sendByte_eq]; rfl
  ackf _ := rfl
  nack _ := rfl

/-- What READ_REG leaves where `VAL` is changed before it. -/
theorem runReadReg_setVal (s : State) (v : Byte) :
    (s.setVal v).runReadReg = s.runReadReg.setVal (if s.runReadReg.ok then s.runReadReg.val else v) := by
  have hreceive : ∀ t : State, (t.setVal v).receiveVal
      = t.receiveVal.setVal (if t.receiveVal.ok then t.receiveVal.val else v) := by
    intro t
    simp only [State.receiveVal, State.recvByte_eq, State.succeed_eq]
    rfl
  exact (carried_val v).sendThen (fun t => (carried_val v).sendThen (fun u =>
    (carried_val v).sendThen hreceive u.startCondition _) t _) s.startCondition _

/-- READ past its address byte, where `RXBUF` is changed before it. -/
theorem runRead_rxbuf_of_goesOn {s : State} (h : s.readGoesOn) (m : Mem) :
    ({ s with rxbuf := m } : State).runRead
      = { s.runRead with rxbuf := ({ s with rxbuf := m } : State).rxFilled s.len.toNat } := by
  rw [State.runRead_of_goesOn h, State.runRead_of_goesOn (s := { s with rxbuf := m }) h, State.succeed_eq,
    State.succeed_eq]
  rfl

/-- READ ended by its address byte, where `RXBUF` is changed before it. -/
theorem runRead_rxbuf_of_not_goesOn {s : State} (h : ¬ s.readGoesOn) (m : Mem) :
    ({ s with rxbuf := m } : State).runRead = { s.runRead with rxbuf := m } := by
  rw [State.runRead_of_not_goesOn h, State.runRead_of_not_goesOn (s := { s with rxbuf := m }) h,
    State.startByte_eq, State.startByte_eq]
  rfl

/-- What START and the byte after it overwrite, and `OK`, make no difference (10_state.md R28). -/
theorem transfer_ignores_overwritten (c : Command) (s : State) (a b : Drv) (x : Byte) (n : BitVec 4)
    (f g h v : Bool) (hc : c ≠ .begin) :
    exec c.instr { s with sdaDrv := a, sclDrv := b, shr := x, bitcnt := n, ackf := f, ok := g, txnOpen := h,
                          smp := v } = exec c.instr s := by
  have same : s.SameTransfer { s with sdaDrv := a, sclDrv := b, shr := x, bitcnt := n, ackf := f, ok := g,
                                      txnOpen := h, smp := v } g :=
    ⟨fun y => by rw [State.startByte_eq, State.startByte_eq]; rfl, rfl⟩
  rw [exec_eq_afterInstr, exec_eq_afterInstr, same.afterInstr hc]

/-- `IDX` before WRITE or READ stays only where the address byte ends the command (10_state.md R25). -/
theorem transfer_ignores_idx (c : Command) (s : State) (n : Count) (hc : c = .write ∨ c = .read) :
    ∃ t, exec c.instr s = .next t ∧ exec c.instr { s with idx := n } = .next { t with
      idx := if s.answer 0 = false ∨ (c = .read ∧ s.params.policy = .legacy) then t.idx else n } := by
  classical
  obtain rfl | rfl := hc
  · refine ⟨s.runWrite, rfl, congrArg Host.Outcome.next ((runWrite_setIdx s n).trans ?_)⟩
    simp [State.setIdx]
  · refine ⟨s.runRead, rfl, congrArg Host.Outcome.next ((runRead_setIdx s n).trans ?_)⟩
    simp only [State.setIdx, State.readGoesOn, true_and]
    congr

/-- Settles O38: START and the first byte overwrite, a transfer carries `OK`, `IDX` and `VAL` along unread,
and READ fills `RXBUF` from below whatever stood there. -/
theorem transfersReadNoUnspecifiedRegister : Obligations.TransfersReadNoUnspecifiedRegister := by
  refine ⟨transfer_ignores_overwritten, transfer_ignores_idx, fun s v => ?_, fun s m hwf hm => ?_⟩
  · exact ⟨s.runReadReg, rfl, congrArg Host.Outcome.next (runReadReg_setVal s v)⟩
  · have hlen := count_toNat_le_bufMax s.len
    by_cases hgo : s.readGoesOn
    · refine ⟨s.runRead, ({ s with rxbuf := m } : State).rxFilled s.len.toNat, rfl,
        congrArg Host.Outcome.next (runRead_rxbuf_of_goesOn hgo m), fun i => ?_⟩
      rw [State.runRead_of_goesOn hgo]
      by_cases hi : i < s.len.toNat
      · rw [if_pos ⟨rfl, hi⟩]
        have hnew := State.read_rxFilled_lt (s := { s with rxbuf := m }) hm hlen hi
        exact hnew.trans (State.read_rxFilled_lt hwf hlen hi).symm
      · rw [if_neg fun h => hi h.2]
        exact State.read_rxFilled_ge { s with rxbuf := m } (not_lt.mp hi)
    · refine ⟨s.runRead, m, rfl, congrArg Host.Outcome.next (runRead_rxbuf_of_not_goesOn hgo m),
        fun i => ?_⟩
      rw [State.runRead_of_not_goesOn hgo]
      exact (if_neg fun h => Bool.noConfusion h.1).symm

end Sys2Proof.Machine
end

section
/-! # The host's accesses (30_encoding.md R69), and a step at the head of an operation -/

namespace Sys2Proof.Machine

theorem cellExists_iff (i : Nat) : cellExists i = true ↔ i < 255 := decide_eq_true_iff

theorem writeTx_of_exists {i : Nat} (hi : i < 255) (v : Byte) (s : State) :
    writeTx i v s = .next { s with txbuf := Mem.write s.txbuf i v } :=
  if_pos ((cellExists_iff i).mpr hi)

theorem writeTx_of_not_exists {i : Nat} (hi : 255 ≤ i) (v : Byte) (s : State) :
    writeTx i v s = .fault (.noSuchCell i) :=
  if_neg fun h => not_lt.mpr hi ((cellExists_iff i).mp h)

/-- Settles O41: in an idle block each write is its own record update, and TXBUF obeys the buffer laws. -/
theorem hostWritesOperands : Obligations.HostWritesOperands := by
  intro s hb
  have idle (a : HostAccess) := perform_of_idle a hb
  refine ⟨fun v => idle _, fun v => idle _, fun v => idle _, fun v => idle _, fun i v hi hwf => ?_,
    fun i v hi => (idle _).trans (writeTx_of_not_exists hi v s)⟩
  exact ⟨_, (idle _).trans (writeTx_of_exists hi v s), rfl, Mem.write_wf hwf ((cellExists_iff i).mpr hi),
    Mem.read_write_same hwf, fun j hj => Mem.read_write_other _ v hj⟩

/-- `STATUS` is the six flags, bit by bit (10_state.md R23). -/
theorem status_bits (s : State) :
    s.status.getLsbD 0 = s.busy ∧ s.status.getLsbD 1 = s.ok ∧ s.status.getLsbD 2 = s.ackf
      ∧ s.status.getLsbD 3 = s.txnOpen ∧ s.status.getLsbD 4 = s.sdaDrv.bit
      ∧ s.status.getLsbD 5 = s.sclDrv.bit ∧ s.status.getLsbD 6 = false ∧ s.status.getLsbD 7 = false := by
  simp only [State.status, BitVec.getLsbD_append]
  simp

theorem Drv.bit_eq (d : Drv) : d.bit = decide (d = .released) := by cases d <;> rfl

/-- An access that needs no idle block acts the same whether a command runs or not (log 11). -/
theorem perform_of_not_needsIdle {a : HostAccess} (h : a.needsIdle = false) (s : State) :
    perform a s = performIdle a s := by
  simp [perform, h]

/-- Settles O42: reads and writes of `STATUS` need no idle block, a command's code is issued in one. -/
theorem commandAndStatusRegisters : Obligations.CommandAndStatusRegisters := by
  intro s
  have read (r : HostReg) : perform (.read r) s = readReg r s := perform_of_not_needsIdle rfl s
  refine ⟨?_, fun v => perform_of_not_needsIdle rfl s, fun c hb => ?_, read _, read _, read _, fun i hi => ?_,
    fun i hi => ?_⟩
  · rw [← Drv.bit_eq, ← Drv.bit_eq]
    exact status_bits s
  · rw [perform_of_idle _ hb, performIdle, writeCmd, decode_encode]
    exact if_pos (hostIssuable_instr c)
  · exact (read _).trans (if_pos ((cellExists_iff i).mpr hi))
  · exact (read _).trans (if_neg fun h => not_lt.mpr hi ((cellExists_iff i).mp h))

/-- With no access that does not wait first, a step at the head of an operation runs its code. -/
theorem step_op {s : State} {code : Byte} (hs : s.seq = .op code) (hn : s.noReentry) :
    step s = runCode code s := by
  have hn' : s.reentrant? = none := hn
  simp [step, oneStep, hs, hn']

theorem runCode_of_decode {code : Byte} {i : Instr} (h : decode code = .ok i) (s : State) :
    runCode code s = runInstr i s := by
  rw [runCode, h]

/-- An operation that is run as a whole. -/
theorem runInstr_whole {i : Instr} {s : State} (h : s.params.grain = .operation ∨ i.command? = none) :
    runInstr i s = .next (afterInstr i s).endCommand := by
  unfold runInstr
  rw [exec_eq_afterInstr]
  split
  · simp_all
  · rfl
  · rfl

/-- A command that is run one primitive a step begins with its first. -/
theorem runInstr_first {c : Command} {s : State} (h : s.params.grain = .primitive) :
    runInstr c.instr s = .next (tick (firstPlace c) 0 s) := by
  simp [runInstr, h]

/-- No access that does not wait stands before a placed operation. -/
theorem withFetchWord_noReentry (s : State) (nbits w : Nat) : (s.withFetchWord nbits w).noReentry := by
  have head := List.head?_dropWhile_not (fun e : HostEvent => e.reentrant) s.host
  have hhost : (s.withFetchWord nbits w).host = s.host.dropWhile fun e => e.reentrant := rfl
  rw [← hhost] at head
  unfold State.noReentry State.reentrant?
  split
  · rename_i hl
    rw [hl] at head
    exact absurd head (by simp)
  · rfl
  · rfl

/-- A row's word that is read as an operation is decoded as it. -/
theorem decode_of_decodeTableWord {nbits w : Nat} {i : Instr} (h : decodeTableWord nbits w = some i) :
    decode (tableCode nbits w) = .ok i := by
  unfold decodeTableWord at h
  split at h
  · rename_i j hj
    rw [hj, Option.some.inj h]
  · cases h

/-- Settles O46: a step at a head runs the code there, as a whole or by its first primitive. -/
theorem stepRunsTheDecodedOperation : Obligations.StepRunsTheDecodedOperation := by
  refine ⟨fun s t code i hs hd hn hw he => ?_, fun s nbits w i hd => ?_, fun s c hs hn hg => ?_,
    fun s code hs hn hd => ?_⟩
  · rw [step_op hs hn, runCode_of_decode hd, runInstr_whole hw, afterInstr_of_exec he]
    rfl
  · refine ⟨_, exec_eq_afterInstr i _, ?_⟩
    rw [step_op rfl (withFetchWord_noReentry s nbits w), runCode_of_decode (decode_of_decodeTableWord hd),
      runInstr_whole (.inl rfl)]
    rfl
  · rw [step_op hs hn, runCode_of_decode (decode_encode _), runInstr_first hg]
  · rw [step_op hs hn, runCode, hd]

end Sys2Proof.Machine
end

section
/-! # The two forms of a command agree (10_state.md R24)

A phase run one primitive a step is the phase as one function; a command is its phases one after another. -/

namespace Sys2Proof.Machine

/-! ### A phase -/

/-- Primitives `k` to `k + n - 1` of the phase `op`. -/
def phaseSteps (op : Instr) (k : Nat) : Nat → State → State
  | 0, s => s
  | n + 1, s => phaseSteps op (k + 1) n (phaseStep op k s)

theorem phaseSteps_add (op : Instr) (k m n : Nat) (s : State) :
    phaseSteps op k (m + n) s = phaseSteps op (k + m) n (phaseSteps op k m s) := by
  induction m generalizing k s with
  | zero => rw [Nat.zero_add]; rfl
  | succ m ih =>
    rw [Nat.succ_add, phaseSteps, phaseSteps, ih, Nat.succ_add_eq_add_succ]

theorem runPrim_bitPrim (bit : Bool) (s : State) : runPrim (bitPrim bit) s = s.sdaBit bit := by
  cases bit <;> rfl

/-- Six primitives of WBYTE are a data cell (42_byte_transfer.md R112). -/
theorem phaseSteps_sendCell {j : Nat} (hj : j < 8) (s : State) :
    phaseSteps .wbyte (6 * j) 6 s = s.sendCell := by
  have first : phaseStep .wbyte (6 * j) s = s.sdaBit (s.shr.getLsbD 7) := by
    rw [← runPrim_bitPrim]
    interval_cases j <;> rfl
  rw [phaseSteps, first, State.sendCell]
  generalize s.sdaBit (s.shr.getLsbD 7) = t
  interval_cases j <;> rfl

/-- Seven primitives of RBYTE are a data cell (42_byte_transfer.md R112). -/
theorem phaseSteps_recvCell {j : Nat} {a : Bool} (hj : j < 8) (s : State) :
    phaseSteps (.rbyte a) (7 * j) 7 s = s.recvCell := by
  interval_cases j <;> rfl

theorem phaseSteps_ackCellIn (s : State) : phaseSteps .wbyte 48 7 s = s.ackCellIn := rfl

theorem phaseSteps_ackCellOut (a : Bool) (s : State) : phaseSteps (.rbyte a) 56 7 s = s.ackCellOut a := by
  cases a <;> rfl

/-- Data cells of WBYTE one after another. -/
theorem phaseSteps_sendCells {j n : Nat} (h : j + n ≤ 8) (s : State) :
    phaseSteps .wbyte (6 * j) (6 * n) s = State.sendCells n s := by
  induction n generalizing j s with
  | zero => rfl
  | succ n ih =>
    rw [Nat.mul_succ, Nat.add_comm, phaseSteps_add, phaseSteps_sendCell (by omega), ← Nat.mul_succ,
      ih (by omega)]
    rfl

/-- Data cells of RBYTE one after another. -/
theorem phaseSteps_recvCells {a : Bool} {j n : Nat} (h : j + n ≤ 8) (s : State) :
    phaseSteps (.rbyte a) (7 * j) (7 * n) s = State.recvCells n s := by
  induction n generalizing j s with
  | zero => rfl
  | succ n ih =>
    rw [Nat.mul_succ, Nat.add_comm, phaseSteps_add, phaseSteps_recvCell (by omega), ← Nat.mul_succ,
      ih (by omega)]
    rfl

/-- A phase as one function, once it has been entered. -/
def phaseWhole (op : Instr) (s : State) : State :=
  match op with
  | .begin => s.sdaRel.sclRel.setTxnOpen false
  | .start => s.startCondition
  | .stop => s.stopCondition
  | .wbyte => (State.sendCells 8 s).ackCellIn
  | .rbyte a => (State.recvCells 8 s).ackCellOut a
  | .sdaLow | .sdaRel | .sclLow | .sclRel | .sdaSample | .wait => runPrim op s
  | .write | .read | .writeReg | .readReg => s

/-- All primitives of a phase, one after another, are the phase. -/
theorem phaseSteps_primCount (op : Instr) (s : State) :
    phaseSteps op 0 (primCount op) s = phaseWhole op s := by
  cases op with
  | wbyte =>
    rw [phaseWhole, ← phaseSteps_ackCellIn, ← phaseSteps_sendCells (j := 0) (by omega)]
    exact phaseSteps_add .wbyte 0 48 7 s
  | rbyte a =>
    rw [phaseWhole, ← phaseSteps_ackCellOut, ← phaseSteps_recvCells (a := a) (j := 0) (by omega)]
    exact phaseSteps_add (.rbyte a) 0 56 7 s
  | _ => rfl

/-- What the phase of place `p` does as one function. -/
def State.phase (s : State) (p : Place) : State := phaseWhole (p.op s) (enterPhase p (p.op s) s)

/-! ### The position makes no difference to a primitive -/

theorem entered_setSeq (p : Place) (k : Nat) (s : State) (q : Seq) :
    entered p k (s.setSeq q) = (entered p k s).setSeq q := by
  have hop : p.op (s.setSeq q) = p.op s := p.op_congr rfl rfl
  have hbyte : p.byteToSend (s.setSeq q) = p.byteToSend s := by cases p <;> rfl
  unfold entered
  rw [hop]
  split
  · cases p.op s with
    | wbyte => exact congrArg (fun b => (s.setSeq q).loadByte b) hbyte
    | _ => rfl
  · rfl

theorem phaseStep_setSeq (op : Instr) (k : Nat) (s : State) (q : Seq) :
    phaseStep op k (s.setSeq q) = (phaseStep op k s).setSeq q := by
  have hrun : ∀ i, runPrim i (s.setSeq q) = (runPrim i s).setSeq q := fun i => by cases i <;> rfl
  unfold phaseStep
  rw [hrun, State.setSeq_shr]
  generalize runPrim (primAt op k s.shr) s = t
  cases op <;> unfold afterPrim <;> dsimp only <;> (repeat' split) <;> rfl

theorem ranPrim_setSeq (p : Place) (k : Nat) (s : State) (q : Seq) :
    ranPrim p k (s.setSeq q) = (ranPrim p k s).setSeq q := by
  have hop : p.op (s.setSeq q) = p.op s := p.op_congr rfl rfl
  rw [ranPrim_eq_phaseStep, ranPrim_eq_phaseStep, hop, entered_setSeq, phaseStep_setSeq]

theorem nextPlace_setSeq (p : Place) (s : State) (q : Seq) : nextPlace p (s.setSeq q) = nextPlace p s := by
  cases p <;> rfl

/-- What a primitive leaves does not depend on the position `SEQ` holds before it. -/
theorem tick_setSeq (p : Place) (k : Nat) (s : State) (q : Seq) : tick p k (s.setSeq q) = tick p k s := by
  have hop : p.op (s.setSeq q) = p.op s := p.op_congr rfl rfl
  unfold tick
  rw [hop, ranPrim_setSeq, nextPlace_setSeq]
  rfl

/-! ### One event a step -/

theorem bitPrim_level (bit : Bool) : (bitPrim bit).level = .p := by cases bit <;> rfl

theorem drivenCellPrim_level (k : Nat) (bit : Bool) : (drivenCellPrim k bit).level = .p := by
  unfold drivenCellPrim
  split
  · exact bitPrim_level bit
  all_goals rfl

theorem sampledCellPrim_level (k : Nat) : (sampledCellPrim k).level = .p := by
  unfold sampledCellPrim
  split <;> rfl

/-- Every position of a phase names a pin primitive (40_pin_driver.md R80). -/
theorem primAt_level (op : Instr) (k : Nat) (b : Byte) : (primAt op k b).level = .p := by
  cases op with
  | begin => unfold primAt beginPrim; dsimp only; split <;> rfl
  | start => unfold primAt startPrim; dsimp only; split <;> rfl
  | stop => unfold primAt stopPrim; dsimp only; split <;> rfl
  | wbyte =>
    unfold primAt
    dsimp only
    split
    · exact drivenCellPrim_level ..
    · exact sampledCellPrim_level _
  | rbyte a =>
    unfold primAt
    dsimp only
    split
    · exact sampledCellPrim_level _
    · exact drivenCellPrim_level ..
  | _ => rfl

theorem runPrim_trace_length {i : Instr} (hi : i.level = .p) (s : State) :
    (runPrim i s).trace.length = s.trace.length + 1 := by
  cases i with
  | sdaLow | sdaRel | sclLow | sclRel | sdaSample | wait => exact List.length_append
  | _ => cases hi

/-- A primitive of a command adds one event (40_pin_driver.md R80). -/
theorem tick_trace_length (p : Place) (k : Nat) (s : State) :
    (tick p k s).trace.length = s.trace.length + 1 := by
  obtain ⟨-, htick, -, -⟩ := tick_observed p k s
  obtain ⟨-, hafter⟩ := afterPrim_observed (p.op s) k (runPrim (nextPrim p k s) (entered p k s))
  obtain ⟨-, hentered, -⟩ := entered_observed p k s
  rw [htick, ranPrim, hafter, runPrim_trace_length (by exact primAt_level ..), hentered]

/-! ### Runs -/

theorem run_of_step {M : Host.Core} {n : Nat} {s t : M.State} (h : M.step s = .next t) :
    M.run (n + 1) s = M.run n t := by
  rw [Host.Core.run, h]

theorem run_congr {M : Host.Core} {n : Nat} {s s' : M.State} (h : M.step s = M.step s') :
    M.run (n + 1) s = M.run (n + 1) s' := by
  rw [Host.Core.run, Host.Core.run, h]

theorem run_add {M : Host.Core} {m n : Nat} {s t : M.State} (h : M.run m s = .next t) :
    M.run (m + n) s = M.run n t := by
  induction m generalizing s with
  | zero =>
    obtain rfl := Host.Outcome.next.inj h
    rw [Nat.zero_add]
  | succ m ih =>
    rw [Host.Core.run] at h
    cases hs : M.step s with
    | next u =>
      rw [hs] at h
      rw [Nat.succ_add, run_of_step hs, ih h]
    | fault r => rw [hs] at h; cases h
    | refused r => rw [hs] at h; cases h

/-- From `s` the machine comes to `t`, in as many steps as it adds events. -/
def State.Runs (s t : State) : Prop :=
  ∃ n, 0 < n ∧ Host.Core.run Sys2Proof.core n s = .next t ∧ t.trace.length = s.trace.length + n

theorem State.Runs.trans {s t u : State} (h : s.Runs t) (h' : t.Runs u) : s.Runs u := by
  obtain ⟨m, hm, hrun, hlen⟩ := h
  obtain ⟨n, -, hrun', hlen'⟩ := h'
  exact ⟨m + n, by omega, (run_add hrun).trans hrun', by omega⟩

theorem State.Runs.of_step {s t : State} (h : step s = .next t) (hlen : t.trace.length = s.trace.length + 1) :
    s.Runs t :=
  ⟨1, Nat.one_pos, run_of_step (M := Sys2Proof.core) h, hlen⟩

/-- Where two states step alike, they run alike. -/
theorem State.Runs.of_step_eq {s s' t : State} (h : s'.Runs t) (hstep : step s = step s')
    (htrace : s.trace = s'.trace) : s.Runs t := by
  obtain ⟨n, hn, hrun, hlen⟩ := h
  obtain ⟨m, rfl⟩ := Nat.exists_eq_succ_of_ne_zero (Nat.ne_of_gt hn)
  exact ⟨m + 1, hn, (run_congr (M := Sys2Proof.core) hstep).trans hrun, htrace ▸ hlen⟩

theorem State.noReentry_congr {s t : State} (h : t.host = s.host) (hs : s.noReentry) : t.noReentry := by
  unfold State.noReentry State.reentrant? at hs ⊢
  rwa [h]

/-- Inside a command the machine runs one primitive. -/
theorem tick_runs {p : Place} {k : Nat} {s : State} (hn : s.noReentry) :
    (s.setSeq (.path p k)).Runs (tick p k s) := by
  have hstep : step (s.setSeq (.path p k)) = .next (tick p k s) := by
    rw [step_path (s := s.setSeq (.path p k)) rfl hn, tick_setSeq]
  exact State.Runs.of_step hstep (tick_trace_length p k s)

/-- From primitive `k` of a phase the machine runs the phase to its end and goes on to the next place. -/
theorem phaseSteps_runs {p : Place} {k n : Nat} {s : State} (hn : s.noReentry)
    (hk : k + (n + 1) = primCount (p.op s)) :
    (s.setSeq (.path p k)).Runs (nextPlace p (phaseSteps (p.op s) k (n + 1) (entered p k s))) := by
  induction n generalizing k s with
  | zero =>
    have hlast : tick p k s = nextPlace p (ranPrim p k s) := if_neg (by omega)
    exact hlast ▸ tick_runs hn
  | succ n ih =>
    have hmore : tick p k s = (ranPrim p k s).setSeq (.path p (k + 1)) := if_pos (by omega)
    have keeps := ranPrim_keeps p k s
    have hop : p.op (ranPrim p k s) = p.op s := p.op_congr keeps.idx keeps.len
    have hrest := ih (k := k + 1) (State.noReentry_congr keeps.host hn) (by rw [hop]; omega)
    rw [hop] at hrest
    exact (hmore ▸ tick_runs hn).trans hrest

/-- A phase run one primitive a step is the phase as one function. -/
theorem phase_runs (p : Place) {s : State} (hn : s.noReentry) :
    (s.goto p).Runs (nextPlace p (s.phase p)) := by
  obtain ⟨n, hcount⟩ := Nat.exists_eq_succ_of_ne_zero (Nat.ne_of_gt (p.primCount_pos s))
  have hrun := phaseSteps_runs (p := p) (k := 0) (n := n) hn (by rw [hcount, Nat.zero_add])
  rw [← Nat.succ_eq_add_one, ← hcount, phaseSteps_primCount] at hrun
  exact hrun

/-! ### A command -/

theorem phase_of_wbyte {p : Place} {s : State} (h : p.op s = .wbyte) :
    s.phase p = s.sendByte (p.byteToSend s) := by
  unfold State.phase
  rw [h]
  rfl

section
variable {s : State} (hn : s.noReentry)
include hn

theorem sendByte_noReentry (b : Byte) : (s.sendByte b).noReentry :=
  State.noReentry_congr (by rw [State.sendByte_eq]) hn

theorem recvByte_noReentry (a : Bool) : (s.recvByte a).noReentry :=
  State.noReentry_congr (by rw [State.recvByte_eq]) hn

theorem startCondition_noReentry : s.startCondition.noReentry :=
  State.noReentry_congr (by rw [State.startCondition_eq]) hn

/-- The closing STOP of a transfer, and its end. -/
theorem stop_runs {p : Place} (ok : Bool) (hop : p.op s = .stop)
    (hp : ∀ t, nextPlace p t = (t.setOk ok).endCommand) :
    (s.goto p).Runs (s.stopCondition.setOk ok).endCommand := by
  have hrun := phase_runs p hn
  have hphase : s.phase p = s.stopCondition := by
    unfold State.phase
    rw [hop]
    rfl
  rwa [hp, hphase] at hrun

theorem succeed_runs {p : Place} (hop : p.op s = .stop)
    (hp : ∀ t, nextPlace p t = (t.setOk true).endCommand) : (s.goto p).Runs s.succeed :=
  stop_runs hn true hop hp

theorem raiseNack_runs {p : Place} (hop : p.op s = .stop)
    (hp : ∀ t, nextPlace p t = (t.setOk false).endCommand) : (s.goto p).Runs s.raiseNack :=
  stop_runs hn false hop hp

/-- A byte sent, and the two ways on from it. -/
theorem sendThen_runs {p fail : Place} {k : State → State} {b : Byte} (go : State → State)
    (hop : p.op s = .wbyte) (hb : p.byteToSend s = b)
    (hp : ∀ t, nextPlace p t = if t.ackf then go t else t.goto fail)
    (hk : ∀ t, t = s.sendByte b → t.noReentry → (go t).Runs (k t))
    (hfail : ∀ {t : State}, t.noReentry → (t.goto fail).Runs t.raiseNack) :
    (s.goto p).Runs (s.sendThen b k) := by
  have hrun := phase_runs p hn
  have hnext := sendByte_noReentry hn b
  rw [hp, phase_of_wbyte hop, hb] at hrun
  unfold State.sendThen
  split
  · rw [if_pos ‹_›] at hrun
    exact hrun.trans (hk _ rfl hnext)
  · rw [if_neg ‹_›] at hrun
    exact hrun.trans (hfail hnext)

theorem writeReg_runs : (s.goto .writeRegStart).Runs s.runWriteReg := by
  have fail {t : State} (ht : t.noReentry) : (t.goto (.writeRegStop false)).Runs t.raiseNack :=
    raiseNack_runs ht rfl fun _ => rfl
  have hstart : (s.goto .writeRegStart).Runs (s.startCondition.goto .writeRegAddr) :=
    phase_runs .writeRegStart hn
  refine hstart.trans (sendThen_runs (startCondition_noReentry hn) (·.goto .writeRegReg) rfl rfl
    (fun _ => rfl) (fun t _ ht => ?_) fail)
  refine sendThen_runs ht (·.goto .writeRegVal) rfl rfl (fun _ => rfl) (fun u _ hu => ?_) fail
  exact sendThen_runs hu (·.goto (.writeRegStop true)) rfl rfl (fun _ => rfl)
    (fun v _ hv => succeed_runs hv rfl fun _ => rfl) fail

theorem readReg_runs : (s.goto .readRegStart).Runs s.runReadReg := by
  have fail {t : State} (ht : t.noReentry) : (t.goto (.readRegStop false)).Runs t.raiseNack :=
    raiseNack_runs ht rfl fun _ => rfl
  have receive {t : State} (ht : t.noReentry) : (t.goto .readRegData).Runs t.receiveVal := by
    have hdata : (t.goto .readRegData).Runs
        (((t.recvByte false).setVal (t.recvByte false).shr).goto (.readRegStop true)) :=
      phase_runs .readRegData ht
    have hn' := State.noReentry_congr (State.setVal_host _ (t.recvByte false).shr) (recvByte_noReentry ht false)
    exact hdata.trans (succeed_runs hn' rfl fun _ => rfl)
  have hstart : (s.goto .readRegStart).Runs (s.startCondition.goto .readRegAddrWrite) :=
    phase_runs .readRegStart hn
  refine hstart.trans (sendThen_runs (startCondition_noReentry hn) (·.goto .readRegReg) rfl rfl
    (fun _ => rfl) (fun t _ ht => ?_) fail)
  refine sendThen_runs ht (·.goto .readRegRestart) rfl rfl (fun _ => rfl) (fun u _ hu => ?_) fail
  have hrestart : (u.goto .readRegRestart).Runs (u.startCondition.goto .readRegAddrRead) :=
    phase_runs .readRegRestart hu
  exact hrestart.trans (sendThen_runs (startCondition_noReentry hu) (·.goto .readRegData) rfl rfl
    (fun _ => rfl) (fun v _ hv => receive hv) fail)

/-- WRITE's loop test and the bytes after it. -/
theorem writeLoop_runs {n : Nat} (hlen : s.idx.toNat + n = s.len.toNat) :
    s.writeNext.Runs (State.writeLoop n s) := by
  induction n generalizing s with
  | zero =>
    have hstop : s.writeNext = s.goto (.writeStop true) := if_neg fun h => by
      have := of_decide_eq_true h
      bv_omega
    exact hstop ▸ succeed_runs hn rfl fun _ => rfl
  | succ n ih =>
    have hmore : s.writeNext = s.goto .writeData := if_pos (decide_eq_true (by bv_omega))
    rw [hmore]
    refine sendThen_runs hn (·.countByte.writeNext) rfl rfl (fun _ => rfl) (fun t ht hnt => ?_)
      fun hu => raiseNack_runs hu rfl fun _ => rfl
    have hidx : t.countByte.idx = s.idx + 1 ∧ t.countByte.len = s.len := by
      rw [ht, State.sendByte_eq]
      exact ⟨rfl, rfl⟩
    exact ih (s := t.countByte) hnt (by rw [hidx.1, hidx.2]; bv_omega)

theorem write_runs : (s.goto .writeStart).Runs s.runWrite := by
  have hstart : (s.goto .writeStart).Runs (s.startCondition.goto .writeAddr) :=
    phase_runs .writeStart hn
  exact hstart.trans (sendThen_runs (startCondition_noReentry hn) (fun t => (t.setIdx 0).writeNext) rfl rfl
    (fun _ => rfl) (fun t _ ht => writeLoop_runs (s := t.setIdx 0) ht (Nat.zero_add _))
    fun hu => raiseNack_runs hu rfl fun _ => rfl)

/-- READ's loop test and the bytes after it. -/
theorem readLoop_runs {n : Nat} (hlen : s.idx.toNat + n = s.len.toNat) :
    s.readNext.Runs (State.readLoop n s) := by
  induction n generalizing s with
  | zero =>
    have hstop : s.readNext = s.goto (.readStop true) := if_neg fun h => by
      have := of_decide_eq_true h
      bv_omega
    exact hstop ▸ succeed_runs hn rfl fun _ => rfl
  | succ n ih =>
    have hmore : s.readNext = s.goto .readData := if_pos (decide_eq_true (by bv_omega))
    have hdata := phase_runs .readData hn
    have hphase : s.phase .readData = s.recvByte (ackWanted s.idx s.len) := rfl
    have hfields : (s.recvByte (ackWanted s.idx s.len)).idx = s.idx
        ∧ (s.recvByte (ackWanted s.idx s.len)).len = s.len := by
      rw [State.recvByte_eq]
      exact ⟨rfl, rfl⟩
    have hnt := recvByte_noReentry hn (ackWanted s.idx s.len)
    rw [hphase] at hdata
    rw [hmore, State.readLoop]
    generalize s.recvByte (ackWanted s.idx s.len) = t at hdata hfields hnt ⊢
    have hidx : (t.setRx t.idx.toNat t.shr).countByte.idx = s.idx + 1 := congrArg (· + 1) hfields.1
    have hlen' : (t.setRx t.idx.toNat t.shr).countByte.len = s.len := hfields.2
    exact hdata.trans (ih hnt (by rw [hidx, hlen']; bv_omega))

theorem read_runs : (s.goto .readStart).Runs s.runRead := by
  have hstart : (s.goto .readStart).Runs (s.startCondition.goto .readAddr) :=
    phase_runs .readStart hn
  have haddr := phase_runs .readAddr (startCondition_noReentry hn)
  have hphase : s.startCondition.phase .readAddr = s.startCondition.sendByte s.addrReadByte :=
    phase_of_wbyte rfl
  have hnt := sendByte_noReentry (startCondition_noReentry hn) s.addrReadByte
  rw [hphase] at haddr
  refine hstart.trans (haddr.trans ?_)
  unfold State.runRead nextPlace
  dsimp only
  generalize s.startCondition.sendByte s.addrReadByte = t at hnt ⊢
  split
  · exact raiseNack_runs hnt rfl fun _ => rfl
  · exact readLoop_runs (s := t.setIdx 0) hnt (Nat.zero_add _)

theorem begin_runs : (s.goto .beginReleases).Runs (s.sdaRel.sclRel.setTxnOpen false).endCommand :=
  phase_runs .beginReleases hn

/-- From its first place the machine runs a command to the state the command as one function leaves. -/
theorem command_runs (c : Command) : (s.goto (firstPlace c)).Runs (afterInstr c.instr s) := by
  cases c with
  | begin => exact begin_runs hn
  | write => exact write_runs hn
  | read => exact read_runs hn
  | writeReg => exact writeReg_runs hn
  | readReg => exact readReg_runs hn

end

/-- Settles O55: at the head of a command a step runs its first primitive, as at its first place. -/
theorem sequencerRefinesCommands : Obligations.SequencerRefinesCommands := by
  intro c s hs hg hn
  have hstep : step s = step (s.goto (firstPlace c)) := by
    rw [step_op hs hn, runCode_of_decode (decode_encode _), runInstr_first hg,
      step_path (s := s.goto (firstPlace c)) rfl hn, State.goto, tick_setSeq]
  obtain ⟨n, -, hrun, hlen⟩ := (command_runs hn c).of_step_eq hstep rfl
  refine ⟨afterInstr c.instr s, exec_eq_afterInstr _ _, ?_⟩
  rw [hlen, Nat.add_sub_cancel_left]
  exact hrun

end Sys2Proof.Machine
end

section
/-! # The level of a line (20_memory.md R46) -/

namespace Sys2Proof.Machine

/-- Settles O6, by who drives the line. -/
theorem lineLevelIsWiredAnd : Obligations.LineLevelIsWiredAnd := by
  intro m p pullup float
  refine ⟨?low, ?pulledUp, ?floating⟩
  case low =>
    rintro (rfl | rfl)
    · rfl
    · cases m <;> rfl
  case pulledUp =>
    rintro ⟨rfl, rfl, rfl⟩
    rfl
  case floating =>
    rintro ⟨rfl, rfl, rfl⟩
    rfl

end Sys2Proof.Machine
end

section
/-! # Every operation completes (20_memory.md R55)

Each command ends at rest: a transfer in its STOP, whether it succeeds or not, BEGIN in its releases. -/

namespace Sys2Proof.Machine

/-- A transfer rule whose `P` outlives what the byte loops do as well holds of every transfer command. -/
theorem TransferRule.transfer {P Q : State → Prop} (h : TransferRule P Q)
    (hidx : ∀ {s} (n), P s → P (s.setIdx n)) (hrecv : ∀ {s} (a), P s → P (s.recvByte a))
    (hrx : ∀ {s} (i b), P s → P (s.setRx i b)) (hval : ∀ {s} (b), P s → P (s.setVal b))
    {c : Command} (hc : c ≠ .begin) {s : State} (hs : P s) : Q (afterInstr c.instr s) := by
  cases c with
  | begin => exact absurd rfl hc
  | write => exact h.write hidx hs
  | read => exact h.read hidx hrecv hrx hs
  | writeReg => exact h.writeReg hs
  | readReg => exact h.readReg hrecv hval hs

/-- The block is idle with both lines released and no transaction open. -/
def State.AtRest (s : State) : Prop :=
  s.drivers = (.released, .released) ∧ s.txnOpen = false ∧ s.busy = false ∧ s.seq = .idle

/-- Both ends of a transfer leave the block at rest, whatever came before. -/
theorem atRest_transferRule : TransferRule (fun _ => True) State.AtRest where
  start _ := trivial
  send _ _ := trivial
  succeed _ := by rw [State.succeed_eq]; exact ⟨rfl, rfl, rfl, rfl⟩
  nack _ := by rw [State.raiseNack_eq]; exact ⟨rfl, rfl, rfl, rfl⟩

theorem afterInstr_command_atRest (c : Command) (s : State) : (afterInstr c.instr s).AtRest := by
  by_cases hc : c = .begin
  · subst hc
    exact ⟨rfl, rfl, rfl, rfl⟩
  · exact atRest_transferRule.transfer (fun _ _ => trivial) (fun _ _ => trivial) (fun _ _ _ => trivial)
      (fun _ _ => trivial) hc trivial

/-- Settles O31: an operation answers the state it leaves, and a command leaves the block at rest. -/
theorem everyOperationCompletes : Obligations.EveryOperationCompletes :=
  ⟨fun i s => ⟨_, exec_eq_afterInstr i s⟩,
    fun c s => ⟨_, exec_eq_afterInstr c.instr s, afterInstr_command_atRest c s⟩⟩

end Sys2Proof.Machine
end

section
/-! # What every step leaves of the observation (20_memory.md R51)

Each of the six ways to step is a chain of moves that append events and keep the parameters. -/

namespace Sys2Proof.Machine

/-- `t` has the trace of `s` with events appended, and its parameters. -/
structure State.Appends (s t : State) : Prop where
  trace : s.trace <+: t.trace
  params : t.params = s.params

theorem State.Appends.trans {s t u : State} (h : s.Appends t) (h' : t.Appends u) : s.Appends u :=
  ⟨h.trace.trans h'.trace, h'.params.trans h.params⟩

/-- A move that emits the events `ev`. -/
theorem State.Appends.of_append {s t : State} {ev : List Event} (ht : t.trace = s.trace ++ ev)
    (hp : t.params = s.params) : s.Appends t :=
  ⟨⟨ev, ht.symm⟩, hp⟩

/-- A move that emits nothing. -/
theorem State.Appends.of_eq {s t : State} (ht : t.trace = s.trace) (hp : t.params = s.params) :
    s.Appends t :=
  .of_append (ev := []) (ht.trans (List.append_nil _).symm) hp

theorem runPrim_appends (i : Instr) (s : State) : s.Appends (runPrim i s) := by
  cases i with
  | sdaLow | sdaRel | sclLow | sclRel | sdaSample | wait => exact .of_append rfl rfl
  | _ => exact .of_eq rfl rfl

theorem sendByte_appends (b : Byte) (s : State) : s.Appends (s.sendByte b) := by
  rw [State.sendByte_eq]
  exact .of_append rfl rfl

theorem recvByte_appends (a : Bool) (s : State) : s.Appends (s.recvByte a) := by
  rw [State.recvByte_eq]
  exact .of_append rfl rfl

theorem startCondition_appends (s : State) : s.Appends s.startCondition := by
  rw [State.startCondition_eq]
  exact .of_append rfl rfl

theorem stopCondition_appends (s : State) : s.Appends s.stopCondition := by
  rw [State.stopCondition_eq]
  exact .of_append rfl rfl

/-- What a transfer has added to a trace stays there, and it goes on adding. -/
theorem appends_transferRule (s : State) : TransferRule s.Appends s.Appends where
  start h := h.trans (startCondition_appends _)
  send b h := h.trans (sendByte_appends b _)
  succeed h := (h.trans (stopCondition_appends _)).trans (.of_eq rfl rfl)
  nack h := (h.trans (stopCondition_appends _)).trans (.of_eq rfl rfl)

theorem afterInstr_appends (i : Instr) (s : State) : s.Appends (afterInstr i s) := by
  have transfer {c : Command} (hc : c ≠ .begin) : s.Appends (afterInstr c.instr s) :=
    (appends_transferRule s).transfer (fun _ h => h.trans (.of_eq rfl rfl))
      (fun a h => h.trans (recvByte_appends a _)) (fun _ _ h => h.trans (.of_eq rfl rfl))
      (fun _ h => h.trans (.of_eq rfl rfl)) hc (.of_eq rfl rfl)
  cases i with
  | sdaLow | sdaRel | sclLow | sclRel | sdaSample | wait => exact .of_append rfl rfl
  | start => exact startCondition_appends s
  | stop => exact stopCondition_appends s
  | wbyte => exact sendByte_appends s.shr s
  | rbyte a => exact recvByte_appends a s
  | begin => exact .of_append (List.append_assoc ..) rfl
  | write => exact transfer (c := .write) nofun
  | read => exact transfer (c := .read) nofun
  | writeReg => exact transfer (c := .writeReg) nofun
  | readReg => exact transfer (c := .readReg) nofun

/-- One primitive of a command appends what the primitive emits. -/
theorem tick_appends (p : Place) (k : Nat) (s : State) : s.Appends (tick p k s) := by
  obtain ⟨-, htick, -, hparams⟩ := tick_observed p k s
  obtain ⟨-, hentered, -⟩ := entered_observed p k s
  obtain ⟨-, hafter⟩ := afterPrim_observed (p.op s) k (runPrim (nextPrim p k s) (entered p k s))
  refine ⟨?_, hparams⟩
  rw [htick, ranPrim, hafter, ← hentered]
  exact (runPrim_appends _ _).trace

/-- A host access that is taken emits nothing. -/
theorem perform_appends {a : HostAccess} {s t : State} (h : perform a s = .next t) : s.Appends t := by
  unfold perform at h
  split at h
  · cases h
  cases a with
  | writeAddr v | writeLen v | writeReg v | writeVal v | writeStatus v =>
    obtain rfl := Host.Outcome.next.inj h
    exact .of_eq rfl rfl
  | writeTx i v =>
    by_cases hi : i < 255
    · rw [performIdle, writeTx_of_exists hi] at h
      obtain rfl := Host.Outcome.next.inj h
      exact .of_eq rfl rfl
    · rw [performIdle, writeTx_of_not_exists (not_lt.mp hi)] at h
      cases h
  | writeCmd code =>
    obtain ⟨c, -, rfl⟩ := writeCmd_cases h
    exact .of_eq rfl rfl
  | read r =>
    obtain ⟨b, rfl⟩ := readReg_cases h
    exact .of_eq rfl rfl
  | drivePin l low => cases h

theorem step_appends {s t : State} (h : step s = .next t) : s.Appends t := by
  cases step_cases h with
  | stay hq ht => exact ht ▸ .of_eq rfl rfl
  | host hq a ha | reentrant hq a ha =>
    exact State.Appends.trans (t := s.hostTaken) (.of_eq rfl rfl) (perform_appends ha)
  | whole code i u hq hd he ht =>
    obtain rfl := afterInstr_of_exec he
    exact ht ▸ (afterInstr_appends i s).trans (.of_eq rfl rfl)
  | first code c hq hd ht => exact ht ▸ tick_appends (firstPlace c) 0 s
  | prim p k hq ht => exact ht ▸ tick_appends p k s

/-- Settles O49: every way to step appends to the trace and keeps the parameters. -/
theorem stepsOnlyAppendEvents : Obligations.StepsOnlyAppendEvents := by
  intro s t h
  obtain ⟨⟨ev, hev⟩, hparams⟩ := step_appends h
  exact ⟨⟨ev, hev.symm⟩, hparams⟩

end Sys2Proof.Machine
end

section
/-! # The code table and the address byte (30_encoding.md R61, R66 to R71) -/

namespace Sys2Proof.Machine

/-- Settles O2: the table read forwards and backwards. -/
theorem decodeInvertsEncode : Obligations.DecodeInvertsEncode :=
  ⟨decode_encode, fun _ _ h => encode_of_decode h⟩

/-- Settles O1: each number is the code of the operation beside it. -/
theorem codeTableDecodes : Obligations.CodeTableDecodes :=
  ⟨decode_encode .sdaLow, decode_encode .sdaRel, decode_encode .sclLow, decode_encode .sclRel,
    decode_encode .sdaSample, decode_encode .wait, decode_encode .start, decode_encode .stop,
    decode_encode .wbyte, decode_encode (.rbyte false), decode_encode (.rbyte true), decode_encode .begin,
    decode_encode .write, decode_encode .read, decode_encode .writeReg, decode_encode .readReg⟩

/-- No two operations have one code. -/
theorem encode_injective : Function.Injective encode := fun i j h => by
  have hd := decode_encode i
  rw [h, decode_encode j] at hd
  exact (Except.ok.inj hd).symm

/-- A code is its two fields (30_encoding.md R67). -/
theorem levelField_append_opField (code : Byte) : levelField code ++ opField code = code :=
  BitVec.extractLsb'_append_extractLsb'

/-- The level field of a code names the operation's level (30_encoding.md R67). -/
theorem levelField_encode (i : Instr) : levelField (encode i) = i.level.field := by
  cases i with
  | rbyte a => cases a <;> rfl
  | _ => rfl

/-- Bit 0 of RBYTE's code is its operand (30_encoding.md R67). -/
theorem ackField_encode (a : Bool) : ackField (encode (.rbyte a)) = a := by cases a <;> rfl

/-- Settles O3: a code is its two fields, and no two operations have one code. -/
theorem codeFieldsNameLevelAndOperation : Obligations.CodeFieldsNameLevelAndOperation := by
  refine ⟨fun i => ?_, fun i j hlevel hop => encode_injective ?_, ackField_encode⟩
  · rw [levelField_encode]
    cases i.level <;> rfl
  · rw [← levelField_append_opField (encode i), ← levelField_append_opField (encode j), hop,
      levelField_encode, levelField_encode, hlevel]

/-- A code is refused as reserved where the table has no operation for it. -/
theorem decode_eq_reserved_iff (code : Byte) :
    decode code = .error (.reserved code) ↔ decode? code = none := by
  unfold decode
  cases decode? code <;> simp

/-- The codes the table leaves out (30_encoding.md R71). -/
theorem decode?_eq_none_iff : ∀ code : Byte, decode? code = none ↔
    code = 0x00 ∨ (0x07 ≤ code ∧ code ≤ 0x0F) ∨ code = 0x13 ∨ (0x16 ≤ code ∧ code ≤ 0x1F)
      ∨ 0x25 ≤ code := by
  decide

/-- The host issues level C and no other (30_encoding.md R66). -/
theorem hostIssuable_eq (i : Instr) : i.hostIssuable = decide (i.level = .c) := by cases i <;> rfl

/-- Settles O4: the table's gaps, and in an idle block what the decoder says of a code written to `CMD`. -/
theorem reservedCodesRefused : Obligations.ReservedCodesRefused := by
  refine ⟨fun code => (decode_eq_reserved_iff code).trans (decode?_eq_none_iff code),
    fun code s hb hd => ?_, fun i s hb hlevel => ?_⟩
  · rw [perform_of_idle _ hb, performIdle, writeCmd, hd]
  · rw [perform_of_idle _ hb, performIdle, writeCmd, decode_encode]
    simp [hostIssuable_eq, hlevel]

/-- The address byte's two forms (30_encoding.md R61). -/
theorem addressByte_eq_append (a : DevAddr) (dir : Dir) : addressByte a dir = a ++ BitVec.ofBool dir := by
  rw [BitVec.append_def, BitVec.shiftLeftZeroExtend_eq, BitVec.setWidth'_eq]
  rfl

/-- Settles O5: the fields are those of the concatenation. -/
theorem addressByteLayout : Obligations.AddressByteLayout := by
  intro a dir
  refine ⟨addressByte_eq_append a dir, rfl, ?_, ?_⟩
  · rw [addressByte_eq_append]
    exact BitVec.extractLsb'_append_eq_left
  · rw [addressByte_eq_append, BitVec.append_ofBool]
    exact BitVec.getLsbD_concat_zero

end Sys2Proof.Machine
end

section
/-! # WRITE_REG as WRITE of two bytes (43_transfer_commands.md R122)

WRITE of `REG` and `VAL` is followed by WRITE_REG, byte by byte: their states differ in `LEN`, `TXBUF` and
`IDX`, which no byte sent looks at. -/

namespace Sys2Proof.Machine

theorem State.startCondition_keeps (s : State) : s.KeepsRegisters s.startCondition := by
  rw [State.startCondition_eq]
  constructor <;> rfl

theorem State.sendByte_keeps (s : State) (b : Byte) : s.KeepsRegisters (s.sendByte b) := by
  rw [State.sendByte_eq]
  constructor <;> rfl

/-- A byte sent carries the change to what comes after it, which finds the operands as they were. -/
theorem CarriedUpdate.sendThen_of_keeps {upd : State → State} {Q : State → State → Prop}
    (h : CarriedUpdate upd Q) {k k' : State → State} {s : State}
    (hk : ∀ t, s.KeepsRegisters t → Q (k t) (k' (upd t))) (b : Byte) :
    Q (s.sendThen b k) ((upd s).sendThen b k') := by
  unfold State.sendThen
  rw [h.send, h.ackf]
  split
  · exact hk _ (s.sendByte_keeps b)
  · exact h.nack _

/-- `LEN`, `TXBUF` and `IDX` of `s` put into `t`. -/
def State.withBlockOf (s t : State) : State := { t with len := s.len, txbuf := s.txbuf, idx := s.idx }

/-- No byte sent looks at `LEN`, `TXBUF` or `IDX`. -/
theorem carried_block (s : State) : CarriedUpdate s.withBlockOf (fun a b => b = s.withBlockOf a) where
  start _ := rfl
  send t b := by rw [State.sendByte_eq, State.sendByte_eq]; rfl
  ackf _ := rfl
  nack _ := rfl

/-- WRITE's loop with one byte to send, which is `VAL`. -/
theorem writeLoop_one {s w : State} (hval : w.txByte w.idx.toNat = w.val) :
    (s.withBlockOf w).sendThen w.val State.succeed = s.withBlockOf (State.writeLoop 1 w) := by
  rw [State.writeLoop, hval]
  exact (carried_block s).sendThen_of_keeps (k := fun t => State.writeLoop 0 t.countByte)
    (fun _ _ => rfl) w.val

/-- WRITE's loop with two bytes to send, which are `REG` and `VAL`. -/
theorem writeLoop_two {s w : State} (hreg : w.txByte w.idx.toNat = w.reg)
    (hval : w.txByte (w.idx + 1).toNat = w.val) :
    ((s.withBlockOf w).sendThen w.reg fun t => t.sendThen t.val State.succeed)
      = s.withBlockOf (State.writeLoop 2 w) := by
  rw [State.writeLoop, hreg]
  refine (carried_block s).sendThen_of_keeps (fun t ht => ?_) w.reg
  refine writeLoop_one (w := t.countByte) ?_
  simpa [State.txByte, State.countByte, ht.txbuf, ht.idx, ht.val] using hval

/-- WRITE of two bytes is followed by WRITE_REG of them. -/
theorem runWriteReg_withBlockOf {s w : State} (hlen : w.len = 2) (hreg : w.txByte 0 = w.reg)
    (hval : w.txByte 1 = w.val) : (s.withBlockOf w).runWriteReg = s.withBlockOf w.runWrite := by
  refine (carried_block s).sendThen_of_keeps (s := w.startCondition)
    (k := fun t => State.writeLoop t.len.toNat (t.setIdx 0)) (fun t ht => ?_) w.addrWriteByte
  have hw := w.startCondition_keeps.trans ht
  rw [hw.len, hlen]
  exact writeLoop_two (w := t.setIdx 0) (by simpa [State.txByte, hw.txbuf, hw.reg] using hreg)
    (by simpa [State.txByte, hw.txbuf, hw.val] using hval)

/-- Settles O25: WRITE of the two bytes is followed by WRITE_REG, whose operands stay. -/
theorem writeRegIsWriteOfTwoBytes : Obligations.WriteRegIsWriteOfTwoBytes := fun s m hreg hval =>
  ⟨_, rfl, congrArg Host.Outcome.next
    (runWriteReg_withBlockOf (s := s) (w := { s with len := 2, txbuf := m }) rfl hreg hval)⟩

end Sys2Proof.Machine
end

section
/-! # Issuing a command (30_encoding.md R69, 10_state.md R19)

An issued command and the same command in an idle block differ in `BUSY` and `SEQ`, which no transfer
looks at before its end. -/

namespace Sys2Proof.Machine

/-- `BUSY` and `SEQ` before a transfer end with it. -/
theorem carried_endCommand : CarriedUpdate State.endCommand Eq where
  start _ := rfl
  send s b := by rw [State.sendByte_eq, State.sendByte_eq]; rfl
  ackf _ := rfl
  nack _ := rfl

theorem State.succeed_endCommand (s : State) : s.succeed = s.endCommand.succeed := rfl

theorem State.writeLoop_endCommand (n : Nat) (s : State) :
    State.writeLoop n s = State.writeLoop n s.endCommand := by
  induction n generalizing s with
  | zero => exact s.succeed_endCommand
  | succ n ih => exact carried_endCommand.sendThen (fun t => ih t.countByte) s _

theorem State.readLoop_endCommand (n : Nat) (s : State) :
    State.readLoop n s = State.readLoop n s.endCommand := by
  induction n generalizing s with
  | zero => exact s.succeed_endCommand
  | succ n ih =>
    have hrecv : ∀ a, s.endCommand.recvByte a = (s.recvByte a).endCommand := fun a => by
      rw [State.recvByte_eq, State.recvByte_eq]; rfl
    have hack : ackWanted s.endCommand.idx s.endCommand.len = ackWanted s.idx s.len := rfl
    simp only [State.readLoop, hack, hrecv]
    exact ih _

theorem State.receiveVal_endCommand (s : State) : s.receiveVal = s.endCommand.receiveVal := by
  simp only [State.receiveVal, State.recvByte_eq, State.succeed_eq]
  rfl

theorem State.runRead_endCommand (s : State) : s.runRead = s.endCommand.runRead := by
  have haborts : ∀ t : State, t.endCommand.readAborts = t.readAborts := fun _ => rfl
  have haddr : s.endCommand.addrReadByte = s.addrReadByte := rfl
  unfold State.runRead
  dsimp only
  rw [haddr, carried_endCommand.start, carried_endCommand.send, haborts]
  generalize s.startCondition.sendByte s.addrReadByte = t
  split
  · rfl
  · exact State.readLoop_endCommand _ _

theorem State.runWriteReg_endCommand (s : State) : s.runWriteReg = s.endCommand.runWriteReg := by
  have h := carried_endCommand
  unfold State.runWriteReg
  exact h.sendThen (fun t => h.sendThen (fun u =>
    h.sendThen State.succeed_endCommand u u.val) t t.reg) s.startCondition _

theorem State.runReadReg_endCommand (s : State) : s.runReadReg = s.endCommand.runReadReg := by
  have h := carried_endCommand
  unfold State.runReadReg
  exact h.sendThen (fun t => h.sendThen (fun u =>
    h.sendThen State.receiveVal_endCommand u.startCondition u.addrReadByte) t t.reg) s.startCondition _

theorem State.runWrite_endCommand (s : State) : s.runWrite = s.endCommand.runWrite := by
  have h := carried_endCommand
  unfold State.runWrite
  exact h.sendThen (fun t => State.writeLoop_endCommand t.len.toNat (t.setIdx 0)) s.startCondition _

/-- A command does the same whether the block is busy before it or not. -/
theorem afterInstr_endCommand (c : Command) (s : State) :
    afterInstr c.instr s = afterInstr c.instr s.endCommand := by
  cases c with
  | begin => rfl
  | write => exact s.runWrite_endCommand
  | read => exact s.runRead_endCommand
  | writeReg => exact s.runWriteReg_endCommand
  | readReg => exact s.runReadReg_endCommand

/-- A command ended once more is as it was. -/
theorem endCommand_afterInstr (c : Command) (s : State) :
    (afterInstr c.instr s).endCommand = afterInstr c.instr s := by
  obtain ⟨-, -, hbusy, hseq⟩ := afterInstr_command_atRest c s
  rw [State.endCommand_eq, ← hbusy, ← hseq]

/-- In an idle block a command's code written to `CMD` is issued (30_encoding.md R69). -/
theorem perform_writeCmd (c : Command) {s : State} (hb : s.busy = false) :
    perform (.writeCmd (encode c.instr)) s = .next (s.issued (encode c.instr)) := by
  rw [perform_of_idle _ hb, performIdle, writeCmd, decode_encode]
  exact if_pos (hostIssuable_instr c)

/-- With no command running a step takes the host's next access. -/
theorem step_idle {s : State} {e : HostEvent} {rest : List HostEvent} (hs : s.seq = .idle)
    (hh : s.host = e :: rest) : step s = perform e.access { s with host := rest } := by
  simp [step, oneStep, hs, hostStep, hh, State.hostTaken]

/-- The step after an issue runs the command as a whole. -/
theorem step_issued (c : Command) {s : State} (hgrain : s.params.grain = .operation) (hn : s.noReentry) :
    step (s.issued (encode c.instr)) = .next (afterInstr c.instr (s.issued (encode c.instr))) := by
  rw [step_op (s := s.issued (encode c.instr)) rfl hn, runCode_of_decode (decode_encode _),
    runInstr_whole (s := s.issued (encode c.instr)) (.inl hgrain), endCommand_afterInstr]

/-- Settles O48: the first step issues the command, the second runs it from the issued state. -/
theorem issueRunsTheCommand : Obligations.IssueRunsTheCommand := by
  intro s c r rest hseq hbusy hhost hgrain hn
  have hissue := (step_idle hseq hhost).trans (perform_writeCmd c (s := { s with host := rest }) hbusy)
  have hrun := step_issued c (s := { s with host := rest }) hgrain hn
  have hidle : (State.issued { s with host := rest } (encode c.instr)).endCommand
      = { s with host := rest, cmd := encode c.instr } := by
    rw [State.endCommand_eq, ← hseq, ← hbusy]
    rfl
  refine ⟨_, exec_eq_afterInstr _ _, ?_⟩
  rw [← hidle, ← afterInstr_endCommand]
  exact (run_of_step (M := core) hissue).trans (run_of_step (M := core) (n := 0) hrun)

end Sys2Proof.Machine
end

section
/-! # What the monitor reads of the phases' events (30_encoding.md R60, R63 to R65)

Inside a transaction every phase is entered and left with SCL low, and what the monitor reads of one list of
events after another is what it reads of each. -/

namespace Sys2Proof.Machine

/-- The monitor after a list of events. -/
def Monitor.after (m : Monitor) : List Event → Monitor
  | [] => m
  | e :: rest => Monitor.after (m.next e).1 rest

theorem Monitor.read_append (m : Monitor) (l l' : List Event) :
    m.read (l ++ l') = m.read l ++ (m.after l).read l' := by
  induction l generalizing m with
  | nil => rfl
  | cons e rest ih => exact (congrArg _ (ih _)).trans (List.append_assoc ..).symm

theorem Monitor.after_append (m : Monitor) (l l' : List Event) :
    m.after (l ++ l') = (m.after l).after l' := by
  induction l generalizing m with
  | nil => rfl
  | cons e rest ih => exact ih _

/-- The monitor between two phases of a transaction: SCL is low, and SDA as the last phase left it. -/
def Monitor.clockLow (d : Drv) : Monitor := ⟨(d, .drivenLow), none⟩

/-- Entered with SCL low, `ev` leaves SCL low, and the monitor reads it as `sym`. -/
def Carries (ev : List Event) (sym : List Symbol) : Prop :=
  ∀ d, (Monitor.clockLow d).read ev = sym ∧ ∃ d', (Monitor.clockLow d).after ev = .clockLow d'

theorem Carries.nil : Carries [] [] := fun d => ⟨rfl, d, rfl⟩

theorem Carries.append {ev ev' : List Event} {sym sym' : List Symbol} (h : Carries ev sym)
    (h' : Carries ev' sym') : Carries (ev ++ ev') (sym ++ sym') := by
  intro d
  obtain ⟨hread, d', hafter⟩ := h d
  obtain ⟨hread', d'', hafter'⟩ := h' d'
  refine ⟨?_, d'', ?_⟩
  · rw [Monitor.read_append, hread, hafter, hread']
  · rw [Monitor.after_append, hafter, hafter']

theorem Carries.flatMap {α : Type} {f : α → List Event} {g : α → List Symbol}
    (h : ∀ x, Carries (f x) (g x)) (l : List α) : Carries (l.flatMap f) (l.flatMap g) := by
  induction l with
  | nil => exact .nil
  | cons x rest ih => exact (h x).append ih

/-- Clock cells that carry a bit each. -/
theorem Carries.bits {cell : Bool → List Event} (h : ∀ b, Carries (cell b) [.bit b]) (l : List Bool) :
    Carries (l.flatMap cell) (l.map .bit) := by
  rw [List.map_eq_flatMap]
  exact .flatMap h l

theorem drivenCell_carries (bit : Bool) : Carries (drivenCell bit) [.bit bit] := fun d =>
  ⟨by cases d <;> cases bit <;> rfl, if bit then .released else .drivenLow, by
    cases d <;> cases bit <;> rfl⟩

theorem sampledCell_carries (v : Bool) : Carries (sampledCell v) [.bit v] := fun d =>
  ⟨by cases d <;> rfl, .released, by cases d <;> rfl⟩

/-- A repeated start (41_bus_conditions.md R102). -/
theorem startEvents_carries : Carries startEvents [.start] := fun d =>
  ⟨by cases d <;> rfl, .drivenLow, by cases d <;> rfl⟩

/-- RBYTE's closing release of SDA is no symbol. -/
theorem sdaRel_carries : Carries [.sdaRel] [] := fun d =>
  ⟨by cases d <;> rfl, .released, by cases d <;> rfl⟩

theorem wbyteEvents_carries (b : Byte) (v : Bool) : Carries (wbyteEvents b v) (byteSymbols b (!v)) := by
  rw [byteSymbols, List.map_append, Bool.not_not]
  exact (Carries.bits drivenCell_carries _).append (sampledCell_carries v)

theorem rbyteEvents_carries (b : Byte) (a : Bool) : Carries (rbyteEvents b a) (byteSymbols b a) := by
  have h := ((Carries.bits sampledCell_carries (byteBits b)).append (drivenCell_carries !a)).append
    sdaRel_carries
  rwa [List.append_nil, ← List.map_singleton, ← List.map_append] at h

theorem ackedBytes_carries (l : List Byte) : Carries (ackedBytes l) (groupSymbols (l.map (·, true))) := by
  rw [groupSymbols, List.flatMap_map]
  exact .flatMap (fun b => wbyteEvents_carries b false) l

/-- What a monitor on an idle bus reads of a transaction. -/
theorem wireSymbols_transaction {ev : List Event} {sym : List Symbol} (h : Carries ev sym) :
    wireSymbols (startEvents ++ (ev ++ stopEvents)) = [.start] ++ sym ++ [.stop] := by
  have hstart : Monitor.after ⟨(.released, .released), none⟩ startEvents = .clockLow .drivenLow := rfl
  have hstop : ∀ d, (Monitor.clockLow d).read stopEvents = [.stop] := fun d => by cases d <;> rfl
  obtain ⟨hread, d, hafter⟩ := h .drivenLow
  rw [wireSymbols, Monitor.read_append, hstart, Monitor.read_append, hread, hafter, hstop, List.append_assoc]
  rfl

end Sys2Proof.Machine
end

section
/-! # On every path one transaction (30_encoding.md R60)

Read backwards from the STOP: each byte sent or received, and the repeated start, goes before what follows. -/

namespace Sys2Proof.Machine

/-- Inside a transaction, `s` ends as `t` after some bytes, at most `n` repeated starts each with the read
address byte and bytes, and the STOP. -/
def State.Finishes (n : Nat) (s t : State) : Prop :=
  ∃ (ev : List Event) (data : List (Byte × Bool)) (again : List (List (Byte × Bool))),
    t.trace = s.trace ++ (ev ++ stopEvents)
      ∧ Carries ev (groupSymbols data ++ again.flatMap fun g => [.start] ++ groupSymbols g)
      ∧ again.length ≤ n
      ∧ ∀ g ∈ again, ∃ (ack : Bool) (data' : List (Byte × Bool)),
          g = (addressByte s.addr true, ack) :: data'

/-- A STOP alone. -/
theorem State.Finishes.of_stop {n : Nat} {s t : State} (h : t.trace = s.trace ++ stopEvents) :
    s.Finishes n t :=
  ⟨[], [], [], h, .nil, Nat.zero_le n, nofun⟩

theorem State.finishes_succeed (n : Nat) (s : State) : s.Finishes n s.succeed :=
  .of_stop (by rw [State.succeed_eq])

theorem State.finishes_raiseNack (n : Nat) (s : State) : s.Finishes n s.raiseNack :=
  .of_stop (by rw [State.raiseNack_eq])

section
variable {n : Nat} {s u : State}

/-- What comes after some bytes. -/
theorem State.Finishes.of_bytes {t : State} {ev : List Event} {l : List (Byte × Bool)} (h : t.Finishes n u)
    (htrace : t.trace = s.trace ++ ev) (haddr : t.addr = s.addr) (hev : Carries ev (groupSymbols l)) :
    s.Finishes n u := by
  obtain ⟨ev', data, again, htrace', hev', hn, hagain⟩ := h
  refine ⟨ev ++ ev', l ++ data, again, ?_, ?_, hn, haddr ▸ hagain⟩
  · rw [htrace', htrace, List.append_assoc, List.append_assoc]
  · rw [groupSymbols, List.flatMap_append, List.append_assoc]
    exact hev.append hev'

/-- What comes after a change that is not on the wire. -/
theorem State.Finishes.of_quiet {t : State} (h : t.Finishes n u) (htrace : t.trace = s.trace)
    (haddr : t.addr = s.addr) : s.Finishes n u :=
  h.of_bytes (ev := []) (l := []) (htrace.trans (List.append_nil _).symm) haddr .nil

theorem groupSymbols_singleton (b : Byte) (a : Bool) : groupSymbols [(b, a)] = byteSymbols b a :=
  List.append_nil _

theorem State.Finishes.of_sendByte {b : Byte} (h : (s.sendByte b).Finishes n u) : s.Finishes n u := by
  have hev := wbyteEvents_carries b (s.answer 0)
  rw [← groupSymbols_singleton] at hev
  rw [State.sendByte_eq] at h
  exact h.of_bytes rfl rfl hev

theorem State.Finishes.of_recvByte {a : Bool} (h : (s.recvByte a).Finishes n u) : s.Finishes n u := by
  have hev := rbyteEvents_carries (s.answerByte 0) a
  rw [← groupSymbols_singleton] at hev
  rw [State.recvByte_eq] at h
  exact h.of_bytes rfl rfl hev

/-- A byte sent that ends the command if it is not acknowledged. -/
theorem State.finishes_sendThen {k : State → State} (hk : ∀ t : State, t.Finishes n (k t)) (s : State)
    (b : Byte) :
    (s.sendByte b).Finishes n (s.sendThen b k) := by
  unfold State.sendThen
  split
  · exact hk _
  · exact State.finishes_raiseNack n _

theorem State.finishes_writeLoop (m : Nat) (s : State) : s.Finishes n (State.writeLoop m s) := by
  induction m generalizing s with
  | zero => exact s.finishes_succeed n
  | succ m ih => exact .of_sendByte (State.finishes_sendThen (fun t => (ih t.countByte).of_quiet rfl rfl) s _)

theorem State.finishes_readLoop (m : Nat) (s : State) : s.Finishes n (State.readLoop m s) := by
  induction m generalizing s with
  | zero => exact s.finishes_succeed n
  | succ m ih =>
    rw [State.readLoop]
    refine .of_recvByte (a := ackWanted s.idx s.len) ?_
    generalize s.recvByte (ackWanted s.idx s.len) = t
    exact (ih _).of_quiet rfl rfl

theorem State.finishes_receiveVal (s : State) : s.Finishes n s.receiveVal := by
  refine .of_recvByte (a := false) ?_
  unfold State.receiveVal
  generalize s.recvByte false = t
  exact ((t.setVal t.shr).finishes_succeed n).of_quiet rfl rfl

/-- START and an address byte go before what follows. -/
theorem State.Finishes.startByte {b : Byte} (h : (s.startCondition.sendByte b).Finishes n u) :
    ∃ (ev : List Event) (ack : Bool) (data : List (Byte × Bool)) (again : List (List (Byte × Bool))),
      u.trace = s.trace ++ (startEvents ++ (ev ++ stopEvents))
        ∧ Carries ev (groupSymbols ((b, ack) :: data)
            ++ again.flatMap fun g => [.start] ++ groupSymbols g)
        ∧ again.length ≤ n
        ∧ ∀ g ∈ again, ∃ (ack' : Bool) (data' : List (Byte × Bool)),
            g = (addressByte s.addr true, ack') :: data' := by
  rw [State.startByte_eq] at h
  obtain ⟨ev, data, again, htrace, hev, hn, hagain⟩ := h
  refine ⟨wbyteEvents b (s.answer 0) ++ ev, !s.answer 0, data, again, ?_, ?_, hn, hagain⟩
  · simpa only [List.append_assoc] using htrace
  · rw [groupSymbols, List.flatMap_cons, List.append_assoc]
    exact (wbyteEvents_carries b _).append hev

/-- A repeated start with the read address byte goes before what follows. -/
theorem State.Finishes.of_restart (h : (s.startCondition.sendByte s.addrReadByte).Finishes n u) :
    s.Finishes (n + 1) u := by
  obtain ⟨ev, ack, data, again, htrace, hev, hn, hagain⟩ := h.startByte
  refine ⟨startEvents ++ ev, [], ((s.addrReadByte, ack) :: data) :: again, ?_, ?_,
    Nat.succ_le_succ hn, ?_⟩
  · rw [htrace, List.append_assoc]
  · exact startEvents_carries.append hev
  · rintro g (_ | ⟨_, hg⟩)
    · exact ⟨ack, data, rfl⟩
    · exact hagain g hg

end

/-- Every transfer command puts START and its address byte on the bus and finishes, READ_REG with at most
one repeated start. -/
theorem afterInstr_finishes {c : Command} (hc : c ≠ .begin) (s : State) :
    (s.startCondition.sendByte (addressByte s.addr (decide (c = .read)))).Finishes
      (if c = .readReg then 1 else 0) (afterInstr c.instr s) := by
  cases c with
  | begin => exact absurd rfl hc
  | write =>
    exact State.finishes_sendThen
      (fun t => (State.finishes_writeLoop t.len.toNat (t.setIdx 0)).of_quiet rfl rfl) s.startCondition _
  | read =>
    show (s.startCondition.sendByte s.addrReadByte).Finishes 0 s.runRead
    unfold State.runRead
    generalize s.startCondition.sendByte s.addrReadByte = t
    dsimp only
    split
    · exact t.finishes_raiseNack 0
    · exact (State.finishes_readLoop t.len.toNat (t.setIdx 0)).of_quiet rfl rfl
  | writeReg =>
    exact State.finishes_sendThen (fun t => .of_sendByte (State.finishes_sendThen (fun u =>
      .of_sendByte (State.finishes_sendThen (State.finishes_succeed 0) u u.val)) t t.reg)) s.startCondition _
  | readReg =>
    exact State.finishes_sendThen (fun t => .of_sendByte (State.finishes_sendThen (fun u =>
      .of_restart (State.finishes_sendThen State.finishes_receiveVal u.startCondition _)) t t.reg))
      s.startCondition _

/-- Settles O40: read backwards from its STOP, a command's trace is one transaction. -/
theorem everyTransferIsOneTransaction : Obligations.EveryTransferIsOneTransaction := by
  intro c s hc _
  obtain ⟨ev, ack, data, again, htrace, hev, hn, hagain⟩ := (afterInstr_finishes hc s).startByte
  refine ⟨_, _, exec_eq_afterInstr c.instr s, htrace, ack, data, again, ?_, hn, hagain⟩
  rw [wireSymbols_transaction hev]
  simp only [List.append_assoc]

end Sys2Proof.Machine
end

section
/-! # Acknowledged transfers (43_transfer_commands.md R121, R122, R124)

START and the bytes after it as one record update, as long as every byte is acknowledged. -/

namespace Sys2Proof.Machine

/-- `s` after START and the bytes `l`, at least one, each acknowledged. -/
def State.startAcked (s : State) (l : List Byte) : State :=
  { s with sdaDrv := .released, sclDrv := .drivenLow, txnOpen := true, ackf := true, smp := false, shr := 0,
           bitcnt := 8, peer := s.peer.drop l.length, samples := s.samples + l.length,
           trace := s.trace ++ (startEvents ++ ackedBytes l) }

theorem State.answer_startAcked (s : State) (l : List Byte) (k : Nat) :
    (s.startAcked l).answer k = s.answer (l.length + k) :=
  State.answer_later (s := s) (t := s.startAcked l) rfl rfl rfl k

theorem State.sendThen_of_ack {s : State} (h : s.answer 0 = false) (b : Byte) (k : State → State) :
    s.sendThen b k = k (s.sendByte b) :=
  if_pos (by rw [State.sendByte_eq, h]; rfl)

/-- START and a first byte, acknowledged. -/
theorem State.startCondition_sendThen {s : State} (h : s.answer 0 = false) (b : Byte) (k : State → State) :
    s.startCondition.sendThen b k = k (s.startAcked [b]) := by
  have hfirst : s.startCondition.answer 0 = false := by rw [State.startCondition_eq]; exact h
  have hbyte : s.startCondition.sendByte b = s.startAcked [b] := by
    rw [State.startByte_eq, h]
    simp [State.startAcked, ackedBytes]
  rw [State.sendThen_of_ack hfirst, hbyte]

/-- One byte more, acknowledged. -/
theorem State.startAcked_sendThen {s : State} {l : List Byte} (h : s.answer l.length = false) (b : Byte)
    (k : State → State) : (s.startAcked l).sendThen b k = k (s.startAcked (l ++ [b])) := by
  have hnext : (s.startAcked l).answer 0 = false := by rw [State.answer_startAcked]; exact h
  have hbyte : (s.startAcked l).sendByte b = s.startAcked (l ++ [b]) := by
    rw [State.sendByte_eq, hnext]
    simp [State.startAcked, ackedBytes, Nat.add_assoc]
  rw [State.sendThen_of_ack hnext, hbyte]

/-- WRITE_REG with its three bytes acknowledged, whole (43_transfer_commands.md R122). -/
theorem State.runWriteReg_of_acked {s : State} (h : ∀ k < 3, s.answer k = false) :
    s.runWriteReg = (s.startAcked [s.addrWriteByte, s.reg, s.val]).succeed := by
  unfold State.runWriteReg
  rw [State.startCondition_sendThen (h 0 (by decide)), State.startAcked_sendThen (h 1 (by decide)),
    State.startAcked_sendThen (h 2 (by decide))]
  rfl

/-- READ_REG with its three sent bytes acknowledged, whole (43_transfer_commands.md R124). -/
theorem State.runReadReg_of_acked {s : State} (h : ∀ k < 3, s.answer k = false) :
    s.runReadReg = ((s.startAcked [s.addrWriteByte, s.reg]).startAcked [s.addrReadByte]).receiveVal := by
  have hagain : (s.startAcked [s.addrWriteByte, s.reg]).answer 0 = false := by
    rw [State.answer_startAcked]
    exact h 2 (by decide)
  unfold State.runReadReg
  rw [State.startCondition_sendThen (h 0 (by decide)), State.startAcked_sendThen (h 1 (by decide))]
  exact State.startCondition_sendThen hagain _ _

/-- The state in which WRITE, begun in `s`, stands with its address byte and `j` data bytes acknowledged. -/
def State.writeAt (s : State) (j : Nat) : State :=
  (s.setIdx (BitVec.ofNat 8 j)).startAcked (s.addrWriteByte :: (List.range j).map s.txByte)

/-- One pass of WRITE's loop sends byte `j`. -/
theorem State.writeLoop_writeAt {s : State} {j : Nat} (hj : j < s.len.toNat) (h : s.answer (j + 1) = false)
    (n : Nat) : State.writeLoop (n + 1) (s.writeAt j) = State.writeLoop n (s.writeAt (j + 1)) := by
  have hidx : (BitVec.ofNat 8 j).toNat = j := by
    have hlt := s.len.isLt
    rw [BitVec.toNat_ofNat]
    omega
  have hbyte : (s.writeAt j).txByte (s.writeAt j).idx.toNat = s.txByte j := congrArg s.txByte hidx
  have hack : (s.setIdx (BitVec.ofNat 8 j)).answer (s.addrWriteByte :: (List.range j).map s.txByte).length
      = false := by
    rw [List.length_cons, List.length_map, List.length_range]
    exact h
  rw [State.writeLoop, hbyte, State.writeAt, State.startAcked_sendThen hack, State.writeAt, List.range_succ,
    List.map_append, BitVec.ofNat_add]
  rfl

/-- WRITE's loop from byte `j` on sends the rest and stops. -/
theorem State.writeLoop_of_acked {s : State} {j n : Nat} (hjn : j + n = s.len.toNat)
    (h : ∀ k ≤ s.len.toNat, s.answer k = false) :
    State.writeLoop n (s.writeAt j) = (s.writeAt s.len.toNat).succeed := by
  induction n generalizing j with
  | zero =>
    obtain rfl : j = s.len.toNat := hjn
    rfl
  | succ n ih => rw [State.writeLoop_writeAt (by omega) (h _ (by omega)), ih (by omega)]

/-- WRITE with every byte acknowledged, whole (43_transfer_commands.md R121). -/
theorem State.runWrite_of_acked {s : State} (h : ∀ k ≤ s.len.toNat, s.answer k = false) :
    s.runWrite = (s.writeAt s.len.toNat).succeed := by
  unfold State.runWrite
  rw [State.startCondition_sendThen (h 0 (Nat.zero_le _))]
  exact State.writeLoop_of_acked (Nat.zero_add _) h

end Sys2Proof.Machine
end

section
/-! # What an acknowledged transfer puts on the wire (30_encoding.md R60 to R65) -/

namespace Sys2Proof.Machine

/-- The trace of `t` is that of `s` and a transaction, which a monitor on an idle bus reads as `sym`. -/
def State.Transaction (s t : State) (sym : List Symbol) : Prop :=
  ∃ ev, t.trace = s.trace ++ ev ∧ wireSymbols ev = [.start] ++ sym ++ [.stop]

theorem State.Transaction.of_carries {s t : State} {ev : List Event} {sym : List Symbol}
    (htrace : t.trace = s.trace ++ (startEvents ++ (ev ++ stopEvents))) (h : Carries ev sym) :
    s.Transaction t sym :=
  ⟨_, htrace, wireSymbols_transaction h⟩

theorem State.startAcked_succeed_transaction (s : State) (l : List Byte) :
    s.Transaction (s.startAcked l).succeed (groupSymbols (l.map (·, true))) := by
  refine .of_carries ?_ (ackedBytes_carries l)
  rw [State.succeed_eq]
  simp only [State.startAcked, List.append_assoc]

/-- A WRITE with every byte acknowledged (43_transfer_commands.md R121). -/
theorem State.writeAt_succeed_transaction (s : State) :
    s.Transaction (s.writeAt s.len.toNat).succeed (groupSymbols (s.writeBytes.map (·, true))) :=
  (s.setIdx (BitVec.ofNat 8 s.len.toNat)).startAcked_succeed_transaction s.writeBytes

/-- A READ past its address byte (43_transfer_commands.md R123). -/
theorem State.readAt_succeed_transaction {s : State} (h : s.answer 0 = false) :
    s.Transaction (s.readAt s.len.toNat).succeed (groupSymbols ((s.addrReadByte, true)
      :: (List.range s.len.toNat).map fun i => (s.readByte i, decide (i + 1 < s.len.toNat)))) := by
  have haddr := wbyteEvents_carries s.addrReadByte false
  have hdata := Carries.flatMap (fun i => rbyteEvents_carries (s.readByte i) (decide (i + 1 < s.len.toNat)))
    (List.range s.len.toNat)
  rw [groupSymbols, List.flatMap_cons, List.flatMap_map]
  refine .of_carries ?_ (haddr.append hdata)
  rw [State.succeed_eq]
  simp only [State.readAt, h, List.append_assoc]

/-- A READ_REG with its three sent bytes acknowledged (43_transfer_commands.md R124). -/
theorem State.receiveVal_transaction (s : State) (l l' : List Byte) :
    s.Transaction ((s.startAcked l).startAcked l').receiveVal
      (groupSymbols (l.map (·, true)) ++ ([.start] ++ groupSymbols
        (l'.map (·, true) ++ [(((s.startAcked l).startAcked l').receiveVal.val, false)]))) := by
  generalize hv : ((s.startAcked l).startAcked l').receiveVal.val = v
  have hlast := (ackedBytes_carries l').append (rbyteEvents_carries v false)
  rw [← groupSymbols_singleton, groupSymbols, groupSymbols, ← List.flatMap_append] at hlast
  refine .of_carries ?_ ((ackedBytes_carries l).append (startEvents_carries.append hlast))
  rw [← hv]
  simp only [State.receiveVal, State.recvByte_eq, State.succeed_eq, State.setVal, State.startAcked,
    List.append_assoc]

/-- Settles O39: each acknowledged transfer as one record update, and what its events carry. -/
theorem wireCarriesTheTransfer : Obligations.WireCarriesTheTransfer := by
  intro s _
  refine ⟨fun h => ?write, fun h => ?writeReg, fun h => ?read, fun h => ?readReg⟩
  case write =>
    obtain ⟨ev, htrace, hwire⟩ := s.writeAt_succeed_transaction
    exact ⟨_, ev, congrArg Host.Outcome.next (State.runWrite_of_acked h), htrace, hwire⟩
  case writeReg =>
    obtain ⟨ev, htrace, hwire⟩ := s.startAcked_succeed_transaction [s.addrWriteByte, s.reg, s.val]
    exact ⟨_, ev, congrArg Host.Outcome.next (State.runWriteReg_of_acked h), htrace, hwire⟩
  case read =>
    obtain ⟨ev, htrace, hwire⟩ := State.readAt_succeed_transaction h
    exact ⟨_, ev, congrArg Host.Outcome.next (State.runRead_of_goesOn (.inl h)), htrace, hwire⟩
  case readReg =>
    obtain ⟨ev, htrace, hwire⟩ := s.receiveVal_transaction [s.addrWriteByte, s.reg] [s.addrReadByte]
    refine ⟨_, ev, congrArg Host.Outcome.next (State.runReadReg_of_acked h), htrace, hwire.trans ?_⟩
    simp only [List.append_assoc, List.map_cons, List.map_nil, List.cons_append, List.nil_append]

end Sys2Proof.Machine
end

section
/-! # The pin primitives (40_pin_driver.md R81 to R86) -/

namespace Sys2Proof.Machine

/-- No event is a marker while SCL is driven low (20_memory.md R50). -/
theorem Event.no_marker_of_scl_low (d : Drv) (e : Event) :
    e.isStart (d, .drivenLow) = false ∧ e.isStop (d, .drivenLow) = false := by
  cases d <;> exact ⟨Bool.and_false _, Bool.and_false _⟩

/-- Settles O7: the primitive as one record update, and the level of a line the block drives. -/
theorem sdaLowDrivesData : Obligations.SdaLowDrivesData := fun s =>
  ⟨congrArg Host.Outcome.next s.sdaLow_eq, rfl, by simp [Event.isStart, State.drivers, and_comm],
    fun p pullup float => (lineLevelIsWiredAnd .drivenLow p pullup float).1 (.inl rfl)⟩

/-- Settles O8: the primitive as one record update, and the level of a line the block has released. -/
theorem sdaRelReleasesData : Obligations.SdaRelReleasesData := fun s =>
  ⟨congrArg Host.Outcome.next s.sdaRel_eq, rfl, by simp [Event.isStop, State.drivers, and_comm],
    fun pullup float =>
    ⟨(lineLevelIsWiredAnd .released .drivesLow pullup float).1 (.inr rfl),
      (lineLevelIsWiredAnd .released .released true float).2.1 ⟨rfl, rfl, rfl⟩,
      (lineLevelIsWiredAnd .released .released false float).2.2 ⟨rfl, rfl, rfl⟩⟩⟩

/-- Settles O9: the primitive as one record update, and both markers ask for SCL released. -/
theorem sclLowDrivesClock : Obligations.SclLowDrivesClock := fun s =>
  ⟨congrArg Host.Outcome.next s.sclLow_eq, rfl, Event.no_marker_of_scl_low⟩

/-- Settles O10: the primitive as one record update, and the pull-up's level of a line nobody drives. -/
theorem sclRelReleasesClock : Obligations.SclRelReleasesClock := fun s =>
  ⟨congrArg Host.Outcome.next s.sclRel_eq, rfl,
    fun float => (lineLevelIsWiredAnd .released .released true float).2.1 ⟨rfl, rfl, rfl⟩⟩

/-- Settles O11: the primitive as one record update, and one wait counted. -/
theorem waitChangesNothing : Obligations.WaitChangesNothing := fun s =>
  ⟨congrArg Host.Outcome.next s.wait_eq, rfl, Nat.one_mul _⟩

/-- Settles O12: the primitive as one record update, and the level of SDA by who drives it. -/
theorem sampleReadsDataLine : Obligations.SampleReadsDataLine := by
  intro s
  obtain ⟨low, pulledUp, floating⟩ :=
    lineLevelIsWiredAnd s.sdaDrv (s.peerAt 0) s.params.pullup (Config.floatSda s.samples)
  exact ⟨congrArg Host.Outcome.next s.sdaSample_eq, rfl, fun hm => low (.inl hm), fun hp => low (.inr hp),
    fun hm hp hu => pulledUp ⟨hm, hp, hu⟩, fun hm hp hu => floating ⟨hm, hp, hu⟩⟩

end Sys2Proof.Machine
end

section
/-! # Pin primitives inside a command (40_pin_driver.md R80, R86) -/

namespace Sys2Proof.Machine

/-- A pin primitive's meaning is what the sequencer runs of it. -/
theorem exec_of_level_p {i : Instr} (hi : i.level = .p) (s : State) : exec i s = .next (runPrim i s) := by
  cases i with
  | sdaLow | sdaRel | sclLow | sclRel | sdaSample | wait => rfl
  | _ => cases hi

/-- A pin primitive emits one event, and leaves the drivers as that event says. -/
theorem runPrim_emits {i : Instr} (hi : i.level = .p) (s : State) :
    ∃ e, (runPrim i s).trace = s.trace ++ [e] ∧ (runPrim i s).drivers = e.drivers s.drivers := by
  cases i with
  | sdaLow | sdaRel | sclLow | sclRel | sdaSample | wait => exact ⟨_, rfl, rfl⟩
  | _ => cases hi

/-- What is seen of one step of the sequencer is what its primitive does. -/
theorem tick_observed_runPrim (p : Place) (k : Nat) (s : State) :
    (tick p k s).drivers = (runPrim (nextPrim p k s) (entered p k s)).drivers
      ∧ (tick p k s).trace = (runPrim (nextPrim p k s) (entered p k s)).trace := by
  obtain ⟨hd, ht, -, -⟩ := tick_observed p k s
  obtain ⟨hd', ht'⟩ := afterPrim_observed (p.op s) k (runPrim (nextPrim p k s) (entered p k s))
  exact ⟨hd.trans hd', ht.trans ht'⟩

/-- Settles O47: the position names a pin primitive, and a step is seen as that primitive alone. -/
theorem oneStepIsOnePrimitive : Obligations.OneStepIsOnePrimitive := by
  intro s p k _ hs hn
  have hlevel : (nextPrim p k s).level = .p := primAt_level ..
  obtain ⟨e, htrace, hdrivers⟩ := runPrim_emits hlevel (entered p k s)
  obtain ⟨hd, ht, -⟩ := entered_observed p k s
  obtain ⟨hd', ht'⟩ := tick_observed_runPrim p k s
  rw [ht] at htrace
  rw [hd] at hdrivers
  exact ⟨hlevel, _, _, e, step_path hs hn, exec_of_level_p hlevel _, htrace, ht'.trans htrace, hd',
    hd'.trans hdrivers⟩

/-- A cell in which the block samples does so at its fifth primitive (42_byte_transfer.md R112). -/
theorem sampledCellPrim_eq_sdaSample : ∀ {k : Nat}, sampledCellPrim k = .sdaSample → k = 4
  | 4, _ => rfl
  | 0, h | 1, h | 2, h | 3, h | 5, h | _ + 6, h => nomatch h

/-- A cell in which the block drives a bit takes no sample (42_byte_transfer.md R112). -/
theorem drivenCellPrim_ne_sdaSample (k : Nat) (bit : Bool) : drivenCellPrim k bit ≠ .sdaSample := by
  unfold drivenCellPrim
  split
  · cases bit <;> nofun
  all_goals nofun

/-- A place runs a bus phase or BEGIN, no pin primitive (43_transfer_commands.md R120 to R124). -/
theorem Place.op_level_ne_p (p : Place) (s : State) : (p.op s).level ≠ .p := by cases p <;> nofun

/-- Where a phase samples, the rules have both lines released (42_byte_transfer.md R112). -/
theorem released_known_of_sdaSample {op : Instr} {k : Nat} {shr : Byte} (hop : op.level ≠ .p)
    (h : primAt op k shr = .sdaSample) :
    sdaKnown op k = some .released ∧ sclKnown op k = some .released := by
  cases op with
  | wbyte =>
    unfold primAt at h
    dsimp only at h
    split at h
    · exact absurd h (drivenCellPrim_ne_sdaSample _ _)
    · have hk := sampledCellPrim_eq_sdaSample h
      simp [sdaKnown, sclKnown, ‹¬ k < 48›, hk, sampledCellSda, sampledCellScl]
  | rbyte a =>
    unfold primAt at h
    dsimp only at h
    split at h
    · have hk := sampledCellPrim_eq_sdaSample h
      have hk0 : k ≠ 0 := by omega
      simp [sdaKnown, sclKnown, ‹k < 56›, hk, hk0, sampledCellSda, sampledCellScl]
    · exact absurd h (drivenCellPrim_ne_sdaSample _ _)
  | begin => unfold primAt beginPrim at h; dsimp only at h; split at h <;> cases h
  | start => unfold primAt startPrim at h; dsimp only at h; split at h <;> cases h
  | stop => unfold primAt stopPrim at h; dsimp only at h; split at h <;> cases h
  | sdaLow | sdaRel | sclLow | sclRel | sdaSample | wait => exact absurd rfl hop
  | write | read | writeReg | readReg => cases h

/-- Settles O53: the invariant's tables of the lines, at the positions that sample. -/
theorem samplesOnlyReleasedLines : Obligations.SamplesOnlyReleasedLines := by
  intro s p k hinv hs hprim
  obtain ⟨-, -, -, hseq⟩ := hinv
  simp only [State.seqOk, hs] at hseq
  obtain ⟨-, -, known, -, -⟩ := (State.atPlace_iff _ _ _).mp hseq.2
  obtain ⟨hsda, hscl⟩ := released_known_of_sdaSample (p.op_level_ne_p s) hprim
  exact Prod.ext (known.sda _ hsda) (known.scl _ hscl)

end Sys2Proof.Machine
end

section
/-! # Where a WAIT follows a driver event (40_pin_driver.md R87)

The one fact about a command's trace: no WAIT follows a driver event only at the opening of a START and at
the closing release of an RBYTE. Adjacent driver events of one line have no WAIT between them, so they are
such a closing release and what follows it. -/

namespace Sys2Proof.Machine

/-! ### Adjacent driver events -/

/-- Pairs that are a release of SDA with SCL low are all that `adjacentOk` asks for. -/
theorem Trace.adjacentOk_of_pairs {d : Drivers} {ev : List Event}
    (h : ∀ k, Trace.pairAt ev k → ev[k]? = some .sdaRel ∧ (Trace.drivers d (ev.take k)).2 = .drivenLow) :
    Trace.adjacentOk d ev = true := by
  induction ev generalizing d with
  | nil => rfl
  | cons x rest ih =>
    cases rest with
    | nil => rfl
    | cons y rest =>
      have tail : Trace.adjacentOk (x.drivers d) (y :: rest) = true := ih fun k hk => h (k + 1) hk
      rw [Trace.adjacentOk, tail, Bool.and_true]
      by_cases hpair : x.line? ≠ none ∧ x.line? = y.line?
      · obtain ⟨hx, hscl⟩ := h 0 ⟨x, y, rfl, rfl, hpair⟩
        obtain rfl : x = .sdaRel := Option.some.inj hx
        have hy : y.line? = some .sda := hpair.2.symm
        have hd : d.2 = .drivenLow := hscl
        simp [hy, hd]
      · rw [not_and_or, not_ne_iff] at hpair
        obtain hx | hxy := hpair
        · simp [hx]
        · simp [hxy]

theorem drivenCell_scl_low (d : Drivers) (bit : Bool) : (Trace.drivers d (drivenCell bit)).2 = .drivenLow := by
  cases bit <;> rfl

/-- An RBYTE's closing release is one of SDA with SCL low (42_byte_transfer.md R111). -/
theorem Trace.rbyteEndsAt.sdaRel_scl_low {ev : List Event} {k : Nat} (h : Trace.rbyteEndsAt ev k)
    (d : Drivers) :
    ev[k]? = some .sdaRel ∧ (Trace.drivers d (ev.take k)).2 = .drivenLow := by
  obtain ⟨pre, b, a, post, rfl, hk, -⟩ := h
  rw [rbyteEvents, ← List.append_assoc, List.length_append, List.length_singleton,
    Nat.add_right_cancel_iff] at hk
  rw [rbyteEvents, ← List.append_assoc, List.append_assoc _ [Event.sdaRel], hk]
  refine ⟨?_, ?_⟩
  · simp
  · rw [List.take_left, ← List.append_assoc, Trace.drivers_append]
    exact drivenCell_scl_low ..

/-! ### Lists one after another -/

/-- A driver event with no WAIT after it in two lists one after the other has none in its own. -/
theorem Trace.noWaitAfter_append {l ev : List Event} {k : Nat} (h : Trace.noWaitAfter (l ++ ev) k) :
    Trace.noWaitAfter l k ∨ ∃ j, k = l.length + j ∧ Trace.noWaitAfter ev j := by
  obtain ⟨x, hx, hline, hnext⟩ := h
  by_cases hk : k < l.length
  · rw [List.getElem?_append_left hk] at hx
    refine .inl ⟨x, hx, hline, fun hw => hnext ?_⟩
    rw [List.getElem?_append_left (List.getElem?_eq_some_iff.mp hw).1, hw]
  · obtain ⟨j, rfl⟩ := Nat.exists_eq_add_of_le (Nat.le_of_not_lt hk)
    rw [Nat.add_assoc, List.getElem?_append_right (Nat.le_add_right ..), Nat.add_sub_cancel_left] at hnext
    rw [List.getElem?_append_right (Nat.le_add_right ..), Nat.add_sub_cancel_left] at hx
    exact .inr ⟨j, rfl, x, hx, hline, hnext⟩

theorem Trace.startOpensAt.append {ev : List Event} {k : Nat} (h : Trace.startOpensAt ev k) (l : List Event) :
    Trace.startOpensAt (ev ++ l) k := by
  obtain ⟨pre, post, rfl, hk⟩ := h
  exact ⟨pre, post ++ l, List.append_assoc .., hk⟩

theorem Trace.startOpensAt.prepend {ev : List Event} {k : Nat} (h : Trace.startOpensAt ev k) (l : List Event) :
    Trace.startOpensAt (l ++ ev) (l.length + k) := by
  obtain ⟨pre, post, rfl, rfl⟩ := h
  exact ⟨l ++ pre, post, by simp only [List.append_assoc], List.length_append.symm⟩

theorem Trace.rbyteEndsAt.prepend {ev : List Event} {k : Nat} (h : Trace.rbyteEndsAt ev k) (l : List Event) :
    Trace.rbyteEndsAt (l ++ ev) (l.length + k) := by
  obtain ⟨pre, b, a, post, rfl, hk, hpost⟩ := h
  refine ⟨l ++ pre, b, a, post, by simp only [List.append_assoc], ?_, hpost⟩
  rw [Nat.add_assoc, hk, ← List.length_append, List.append_assoc]

/-- A WAIT follows every driver event directly, but at the opening of a START and, where `r` allows RBYTEs,
at the closing release of an RBYTE. -/
def Trace.Paced (r : Prop) (ev : List Event) : Prop :=
  ∀ k, Trace.noWaitAfter ev k → Trace.startOpensAt ev k ∨ r ∧ Trace.rbyteEndsAt ev k

/-- A list with no RBYTE in it may go before any other. -/
theorem Trace.Paced.append {r : Prop} {l ev : List Event} (h : Trace.Paced False l) (h' : Trace.Paced r ev) :
    Trace.Paced r (l ++ ev) := by
  intro k hk
  obtain hl | ⟨j, rfl, hev⟩ := Trace.noWaitAfter_append hk
  · obtain hstart | ⟨⟨⟩, -⟩ := h k hl
    exact .inl (hstart.append ev)
  · exact (h' j hev).imp (·.prepend l) fun ⟨hr, hend⟩ => ⟨hr, hend.prepend l⟩

theorem Trace.Paced.mono {r r' : Prop} {ev : List Event} (h : Trace.Paced r ev) (hr : r → r') :
    Trace.Paced r' ev :=
  fun k hk => (h k hk).imp_right (.imp_left hr)

/-! ### The phases -/

/-- A test for the positions that `noWaitAfter` speaks of. -/
def Trace.unwaitedAt (ev : List Event) (k : Nat) : Bool :=
  (ev[k]?.bind Event.line?).isSome && decide (ev[k + 1]? ≠ some .wait)

theorem Trace.unwaitedAt_of_noWaitAfter {ev : List Event} {k : Nat} (h : Trace.noWaitAfter ev k) :
    Trace.unwaitedAt ev k = true := by
  obtain ⟨x, hx, hline, hnext⟩ := h
  simp [Trace.unwaitedAt, hx, hnext, Option.isSome_iff_ne_none.mpr hline]

/-- A list in which a WAIT follows every driver event is paced; its positions are checked one by one. -/
theorem Trace.paced_of_lt {r : Prop} {ev : List Event}
    (h : ∀ k < ev.length, ¬ Trace.unwaitedAt ev k) : Trace.Paced r ev :=
  fun k hk => absurd (Trace.unwaitedAt_of_noWaitAfter hk) (h k (Trace.noWaitAfter_lt hk))

theorem drivenCell_paced (bit : Bool) : Trace.Paced False (drivenCell bit) :=
  Trace.paced_of_lt (by cases bit <;> decide)

theorem sampledCell_paced (v : Bool) : Trace.Paced False (sampledCell v) :=
  Trace.paced_of_lt (by cases v <;> decide)

theorem stopEvents_paced (r : Prop) : Trace.Paced r stopEvents := Trace.paced_of_lt (by decide)

theorem startEvents_paced : Trace.Paced False startEvents := by
  have first : ∀ k < 7, Trace.unwaitedAt startEvents k → k = 0 := by decide
  intro k hk
  obtain rfl := first k (Trace.noWaitAfter_lt hk) (Trace.unwaitedAt_of_noWaitAfter hk)
  exact .inl ⟨[], [], rfl, rfl⟩

/-- Clock cells one after another. -/
theorem Trace.Paced.flatMap {cell : Bool → List Event} (h : ∀ b, Trace.Paced False (cell b))
    (l : List Bool) :
    Trace.Paced False (l.flatMap cell) := by
  induction l with
  | nil => exact Trace.paced_of_lt nofun
  | cons b rest ih => exact (h b).append ih

theorem wbyteEvents_paced (b : Byte) (v : Bool) : Trace.Paced False (wbyteEvents b v) :=
  (Trace.Paced.flatMap drivenCell_paced _).append (sampledCell_paced v)

/-- An RBYTE goes before the next RBYTE or the STOP (42_byte_transfer.md R111). -/
theorem Trace.Paced.rbyte {ev : List Event} (h : Trace.Paced True ev)
    (hnext : ev = stopEvents ∨ ∃ b' a' rest, ev = rbyteEvents b' a' ++ rest) (b : Byte) (a : Bool) :
    Trace.Paced True (rbyteEvents b a ++ ev) := by
  have cells : Trace.Paced False ((byteBits b).flatMap sampledCell ++ drivenCell (!a)) :=
    (Trace.Paced.flatMap sampledCell_paced _).append (drivenCell_paced _)
  intro k hk
  obtain hrbyte | ⟨j, rfl, hev⟩ := Trace.noWaitAfter_append hk
  · obtain hcells | ⟨j, rfl, hclose⟩ := Trace.noWaitAfter_append hrbyte
    · obtain hstart | ⟨⟨⟩, -⟩ := cells k hcells
      exact .inl ((hstart.append _).append _)
    · obtain rfl : j = 0 := Nat.lt_one_iff.mp (Trace.noWaitAfter_lt hclose)
      exact .inr ⟨trivial, [], b, a, ev, rfl, by simp [rbyteEvents, Nat.add_assoc], hnext⟩
  · exact (h j hev).imp (·.prepend _) fun ⟨_, hend⟩ => ⟨trivial, hend.prepend _⟩

/-- The bytes a READ receives, and its STOP (43_transfer_commands.md R123). -/
theorem rbytes_stop_paced {α : Type} (f : α → Byte) (g : α → Bool) (l : List α) :
    Trace.Paced True (l.flatMap (fun x => rbyteEvents (f x) (g x)) ++ stopEvents) := by
  induction l with
  | nil => exact stopEvents_paced True
  | cons x rest ih =>
    rw [List.flatMap_cons, List.append_assoc]
    refine ih.rbyte ?_ (f x) (g x)
    cases rest with
    | nil => exact .inl rfl
    | cons y rest => exact .inr ⟨_, _, _, by rw [List.flatMap_cons, List.append_assoc]⟩

/-! ### The commands -/

/-- The trace of `t` is that of `s` and a paced list of events. -/
def State.AddsPaced (r : Prop) (s t : State) : Prop := ∃ ev, t.trace = s.trace ++ ev ∧ Trace.Paced r ev

theorem State.AddsPaced.trans {r : Prop} {s t u : State} (h : s.AddsPaced False t) (h' : t.AddsPaced r u) :
    s.AddsPaced r u := by
  obtain ⟨ev, htrace, hev⟩ := h
  obtain ⟨ev', htrace', hev'⟩ := h'
  exact ⟨ev ++ ev', by rw [htrace', htrace, List.append_assoc], hev.append hev'⟩

theorem State.AddsPaced.refl (s : State) : s.AddsPaced False s :=
  ⟨[], (List.append_nil _).symm, Trace.paced_of_lt nofun⟩

theorem State.startCondition_addsPaced (s : State) : s.AddsPaced False s.startCondition :=
  ⟨_, by rw [State.startCondition_eq], startEvents_paced⟩

theorem State.sendByte_addsPaced (s : State) (b : Byte) : s.AddsPaced False (s.sendByte b) :=
  ⟨_, by rw [State.sendByte_eq], wbyteEvents_paced b _⟩

/-- What a transfer has added is paced as long as no RBYTE has been run, and its STOP keeps it so. -/
theorem paced_transferRule (s : State) (r : Prop) : TransferRule (s.AddsPaced False) (s.AddsPaced r) where
  start h := h.trans (State.startCondition_addsPaced _)
  send b h := h.trans (State.sendByte_addsPaced _ b)
  succeed h := h.trans ⟨_, by rw [State.succeed_eq], stopEvents_paced r⟩
  nack h := h.trans ⟨_, by rw [State.raiseNack_eq], stopEvents_paced r⟩

/-- The byte READ_REG receives, and its STOP (43_transfer_commands.md R124). -/
theorem State.receiveVal_addsPaced (s : State) : s.AddsPaced True s.receiveVal := by
  refine ⟨rbyteEvents (s.answerByte 0) false ++ stopEvents, ?_,
    (stopEvents_paced True).rbyte (.inl rfl) (s.answerByte 0) false⟩
  simp only [State.receiveVal, State.recvByte_eq, State.succeed_eq, State.setVal, List.append_assoc]

theorem State.runRead_addsPaced (s : State) : s.AddsPaced True s.runRead := by
  by_cases hgo : s.readGoesOn
  · rw [State.runRead_of_goesOn hgo, State.succeed_eq]
    have bytes := rbytes_stop_paced s.readByte (fun i => decide (i + 1 < s.len.toNat)) (List.range s.len.toNat)
    refine ⟨_, ?_, startEvents_paced.append ((wbyteEvents_paced s.addrReadByte (s.answer 0)).append bytes)⟩
    simp only [State.readAt, List.append_assoc]
  · rw [State.runRead_of_not_goesOn hgo]
    have rule := paced_transferRule s True
    exact rule.nack (rule.send _ (rule.start (.refl s)))

theorem State.runReadReg_addsPaced (s : State) : s.AddsPaced True s.runReadReg := by
  have rule := paced_transferRule s True
  exact rule.sendThen (fun ht => rule.sendThen (fun hu => rule.sendThen
    (fun hv => hv.trans (State.receiveVal_addsPaced _)) _ (rule.start hu)) _ ht) _ (rule.start (.refl s))

/-- Every transfer command is paced, and WRITE and WRITE_REG have no RBYTE. -/
theorem afterInstr_addsPaced {c : Command} (hc : c ≠ .begin) (s : State) :
    s.AddsPaced (c = .read ∨ c = .readReg) (afterInstr c.instr s) := by
  have rule := paced_transferRule s (c = .read ∨ c = .readReg)
  cases c with
  | begin => exact absurd rfl hc
  | write => exact rule.write (fun _ ht => ht) (.refl s)
  | writeReg => exact rule.writeReg (.refl s)
  | read => exact s.runRead_addsPaced.imp fun _ h => h.imp_right (·.mono fun _ => .inl rfl)
  | readReg => exact s.runReadReg_addsPaced.imp fun _ h => h.imp_right (·.mono fun _ => .inr rfl)

/-- In a paced list two adjacent driver events of one line are at the end of an RBYTE. -/
theorem Trace.Paced.rbyteEndsAt_of_pairAt {r : Prop} {ev : List Event} {k : Nat} (h : Trace.Paced r ev)
    (hk : Trace.pairAt ev k) : r ∧ Trace.rbyteEndsAt ev k :=
  (h k (Trace.noWaitAfter_of_pairAt hk)).resolve_left (Trace.not_startOpensAt_of_pairAt hk)

/-- BEGIN's two releases are on different lines (43_transfer_commands.md R120). -/
theorem begin_not_pairAt (k : Nat) : ¬ Trace.pairAt [.sdaRel, .sclRel] k := by
  rintro ⟨x, y, hx, hy, -, he⟩
  have hk : k + 1 < 2 := (List.getElem?_eq_some_iff.mp hy).1
  obtain rfl : k = 0 := by omega
  obtain rfl := Option.some.inj hx
  obtain rfl := Option.some.inj hy
  cases he

/-- Settles O36: BEGIN has no pair, and every other command's trace is paced. -/
theorem adjacentDriverEvents : Obligations.AdjacentDriverEvents := by
  intro c s
  by_cases hc : c = .begin
  · subst hc
    exact ⟨_, [.sdaRel, .sclRel], exec_eq_afterInstr Command.begin.instr s, List.append_assoc ..,
      Trace.adjacentOk_of_pairs fun k hk => absurd hk (begin_not_pairAt k), fun _ => begin_not_pairAt,
      fun k hk => absurd hk (begin_not_pairAt k), fun _ _ => .inl rfl⟩
  · obtain ⟨ev, htrace, hev⟩ := afterInstr_addsPaced hc s
    refine ⟨_, ev, exec_eq_afterInstr c.instr s, htrace, ?adjacent, ?noPair, ?pair, ?waits⟩
    case adjacent =>
      exact Trace.adjacentOk_of_pairs fun k hk => (hev.rbyteEndsAt_of_pairAt hk).2.sdaRel_scl_low s.drivers
    case noPair =>
      intro hwrites k hk
      obtain ⟨hreads, -⟩ := hev.rbyteEndsAt_of_pairAt hk
      rcases hreads with rfl | rfl <;> simp at hwrites
    case pair => exact fun k hk => (hev.rbyteEndsAt_of_pairAt hk).2
    case waits => exact fun k hk => .inr ((hev k hk).imp_right (·.2))

end Sys2Proof.Machine
end

section
/-! # The bus phases (41_bus_conditions.md R100 to R103)

Each phase as one record update; its markers and the drivers it leaves are the effect of its events. -/

namespace Sys2Proof.Machine

/-- Inside a command the invariant speaks of the position. -/
theorem State.Inv.atPlace {s : State} (h : s.Inv) {p : Place} {k : Nat} (hq : s.seq = .path p k) :
    s.atPlace p k := by
  obtain ⟨-, -, -, hseq⟩ := h
  simp only [State.seqOk, hq] at hseq
  exact hseq.2

/-- A command enters STOP as a byte transfer leaves the lines (41_bus_conditions.md R103). -/
theorem State.Inv.drivers_of_stop {s : State} (h : s.Inv) {p : Place} (hq : s.seq = .path p 0)
    (hop : p.op s = .stop) : s.drivers = (.released, .drivenLow) := by
  obtain ⟨-, -, known, -, -⟩ := (State.atPlace_iff _ _ _).mp (h.atPlace hq)
  rw [hop] at known
  exact Prod.ext (known.sda _ rfl) (known.scl _ rfl)

/-- What an effect says of the markers. -/
theorem Trace.markers_of_effect {d e : Drivers} {l : List Event} {a b : Nat}
    (h : Trace.effect d l = (e, a, b)) : Trace.starts d l = a ∧ Trace.stops d l = b :=
  Prod.mk.inj (Prod.mk.inj h).2

/-- Settles O13: START as one record update, and the effect of its events. -/
theorem startMakesStartCondition : Obligations.StartMakesStartCondition := by
  intro s
  refine ⟨congrArg Host.Outcome.next s.startCondition_eq, rfl, rfl, fun d => ?_⟩
  obtain ⟨hstarts, hstops⟩ := Trace.markers_of_effect (startEvents_effect d)
  exact ⟨hstarts, rfl, rfl, hstops⟩

/-- Settles O14: STOP as one record update, the effect of its events, and the lines at its entry. -/
theorem stopMakesStopCondition : Obligations.StopMakesStopCondition := by
  intro s
  refine ⟨congrArg Host.Outcome.next s.stopCondition_eq, rfl, rfl, fun d => ?_,
    fun p hs hq hop => hs.drivers_of_stop hq hop⟩
  obtain ⟨hstarts, hstops⟩ := Trace.markers_of_effect (stopEvents_effect d)
  exact ⟨hstops, rfl, rfl, hstarts⟩

/-- A row of the phase table, from the events of a phase and their effect. -/
theorem phaseRow_of_effect {s t : State} {ev : List Event} {leaves : Drivers} {starts stops : Nat}
    (ht : t.trace = s.trace ++ ev) (hd : t.drivers = leaves)
    (he : Trace.effect s.drivers ev = (leaves, starts, stops)) :
    phaseRow s t leaves starts stops ev.length (Trace.waits ev) := by
  obtain ⟨hstarts, hstops⟩ := Trace.markers_of_effect he
  exact ⟨hd, ev, ht, hstarts, hstops, rfl, rfl⟩

/-- START's row: no stop marker, unless it is entered with SDA low and SCL released. -/
theorem startCondition_phaseRow {s : State} (h : s.drivers ≠ (.drivenLow, .released)) :
    phaseRow s s.startCondition (.drivenLow, .drivenLow) 1 0 7 3 := by
  have heffect := startEvents_effect s.drivers
  rw [if_neg h] at heffect
  rw [State.startCondition_eq]
  exact phaseRow_of_effect (ev := startEvents) rfl rfl heffect

/-- STOP's row: no start marker, unless it is entered with both lines released. -/
theorem stopCondition_phaseRow {s : State} (h : s.drivers ≠ (.released, .released)) :
    phaseRow s s.stopCondition (.released, .released) 0 1 6 3 := by
  have heffect := stopEvents_effect s.drivers
  rw [if_neg h] at heffect
  rw [State.stopCondition_eq]
  exact phaseRow_of_effect (ev := stopEvents) rfl rfl heffect

/-- WBYTE's row, whichever byte it sends. -/
theorem sendByte_phaseRow {s : State} {d : Drv} (h : s.drivers = (d, .drivenLow)) (b : Byte) :
    phaseRow s (s.sendByte b) (.released, .drivenLow) 0 0 55 27 := by
  have heffect := wbyteEvents_effect d b (s.answer 0)
  rw [← h] at heffect
  rw [State.sendByte_eq, ← wbyteEvents_length b (s.answer 0), ← wbyteEvents_waits b (s.answer 0)]
  exact phaseRow_of_effect rfl rfl heffect

/-- RBYTE's row, for either acknowledge. -/
theorem recvByte_phaseRow {s : State} {d : Drv} (h : s.drivers = (d, .drivenLow)) (a : Bool) :
    phaseRow s (s.recvByte a) (.released, .drivenLow) 0 0 63 27 := by
  have heffect := rbyteEvents_effect d (s.answerByte 0) a
  rw [← h] at heffect
  rw [State.recvByte_eq, ← rbyteEvents_length (s.answerByte 0) a, ← rbyteEvents_waits (s.answerByte 0) a]
  exact phaseRow_of_effect rfl rfl heffect

/-- Settles O18: the row of each phase, at the drivers the commands enter it with. -/
theorem phaseTable : Obligations.PhaseTable := by
  intro s
  refine ⟨fun h => ?first, fun h _ => ?repeated, fun h => ?wbyte, fun h a => ?rbyte, fun h => ?stop⟩
  case first => exact ⟨_, exec_eq_afterInstr .start s, startCondition_phaseRow (h ▸ nofun)⟩
  case repeated => exact ⟨_, exec_eq_afterInstr .start s, startCondition_phaseRow (h ▸ nofun), rfl⟩
  case wbyte =>
    refine ⟨_, exec_eq_afterInstr .wbyte s, ?_⟩
    rcases h with h | h <;> exact sendByte_phaseRow h s.shr
  case rbyte => exact ⟨_, exec_eq_afterInstr (.rbyte a) s, recvByte_phaseRow h a⟩
  case stop => exact ⟨_, exec_eq_afterInstr .stop s, stopCondition_phaseRow (h ▸ nofun)⟩

end Sys2Proof.Machine
end

section
/-! # The bus stays settled (41_bus_conditions.md R103)

Between commands and up to a command's first SCL event only releases of SDA happen; a STOP, and BEGIN,
end with both lines released, and the byte before a repeated start leaves SDA released and SCL low. -/

namespace Sys2Proof.Machine

/-- Outside of a command a settled bus has both lines released. -/
theorem State.busSettled_iff_released {s : State} (hq : s.seq = .idle ∨ ∃ code, s.seq = .op code) :
    s.busSettled ↔ s.drivers = (.released, .released) := by
  unfold State.busSettled
  obtain hq | ⟨code, hq⟩ := hq <;> rw [hq]

/-- Inside a command a settled bus speaks of the entry of each START. -/
theorem State.busSettled_path {s : State} {p : Place} {k : Nat} (hq : s.seq = .path p k) :
    s.busSettled ↔ (p.opened = false → k ≤ 1 → s.drivers = (.released, .released))
      ∧ (p = .readRegRestart → k ≤ 1 → s.drivers = (.released, .drivenLow)) := by
  unfold State.busSettled
  rw [hq]

/-- A host access that is taken drives no line; it leaves the position, or issues a command. -/
theorem perform_observed {a : HostAccess} {s t : State} (h : perform a s = .next t) :
    t.drivers = s.drivers ∧ (t.seq = s.seq ∨ ∃ code, t.seq = .op code) := by
  unfold perform at h
  split at h
  · cases h
  cases a with
  | writeAddr v | writeLen v | writeReg v | writeVal v | writeStatus v =>
    obtain rfl := Host.Outcome.next.inj h
    exact ⟨rfl, .inl rfl⟩
  | writeTx i v =>
    simp only [performIdle, writeTx] at h
    split at h
    · obtain rfl := Host.Outcome.next.inj h
      exact ⟨rfl, .inl rfl⟩
    · cases h
  | writeCmd code =>
    obtain ⟨c, -, rfl⟩ := writeCmd_cases h
    exact ⟨rfl, .inr ⟨code, rfl⟩⟩
  | read r =>
    obtain ⟨b, rfl⟩ := readReg_cases h
    exact ⟨rfl, .inl rfl⟩
  | drivePin l low => cases h

/-- Inside a transaction the entry of the repeated start alone asks something of the lines. -/
theorem State.goto_busSettled {s : State} {p : Place} (ho : p.opened = true)
    (hr : p = .readRegRestart → s.drivers = (.released, .drivenLow)) : (s.goto p).busSettled :=
  (State.busSettled_path rfl).mpr ⟨fun hc => absurd (ho.symm.trans hc) nofun, fun hp _ => hr hp⟩

/-- The end of a command leaves the bus settled where its last phase has released both lines. -/
theorem State.endCommand_busSettled {s : State} (h : s.drivers = (.released, .released)) :
    s.endCommand.busSettled :=
  (State.busSettled_iff_released (.inl rfl)).mpr h

/-- The move from a phase to the next place leaves the bus settled. BEGIN's own releases are asked for,
as the tables of the lines say nothing of SCL there. -/
theorem nextPlace_busSettled {s : State} {p : Place} (h : s.Known (p.op s) (primCount (p.op s)))
    (hbegin : p = .beginReleases → s.drivers = (.released, .released)) : (nextPlace p s).busSettled := by
  cases p with
  | beginReleases => exact State.endCommand_busSettled (hbegin rfl)
  | writeStop ok | readStop ok | writeRegStop ok | readRegStop ok =>
    exact State.endCommand_busSettled (Prod.ext (h.sda _ rfl) (h.scl _ rfl))
  | writeStart | readStart | writeRegStart | readRegStart | readRegRestart | readRegData =>
    exact State.goto_busSettled rfl nofun
  | writeAddr | writeData =>
    unfold nextPlace State.writeNext
    dsimp only
    (repeat' split) <;> exact State.goto_busSettled rfl nofun
  | readAddr | readData =>
    unfold nextPlace State.readNext
    dsimp only
    (repeat' split) <;> exact State.goto_busSettled rfl nofun
  | writeRegAddr | writeRegReg | writeRegVal | readRegAddrWrite | readRegAddrRead =>
    unfold nextPlace State.gotoIfAcked
    dsimp only
    split <;> exact State.goto_busSettled rfl nofun
  | readRegReg =>
    unfold nextPlace State.gotoIfAcked
    dsimp only
    split
    · exact State.goto_busSettled rfl fun _ => Prod.ext (h.sda _ rfl) (h.scl _ rfl)
    · exact State.goto_busSettled rfl nofun

/-- Each START, and BEGIN, opens with a release of SDA (41_bus_conditions.md R100). -/
theorem nextPrim_zero_of_start {p : Place} (h : p.opened = false ∨ p = .readRegRestart) (s : State) :
    nextPrim p 0 s = .sdaRel := by
  obtain h | rfl := h
  · cases p with
    | beginReleases | writeStart | readStart | writeRegStart | readRegStart => rfl
    | _ => cases h
  · rfl

/-- A release of SDA leaves SCL as it was, whatever its phase does with it. -/
theorem ranPrim_drivers_of_sdaRel {p : Place} {k : Nat} {s : State} (h : nextPrim p k s = .sdaRel) :
    (ranPrim p k s).drivers = (.released, s.drivers.2) := by
  obtain ⟨hentered, -, -⟩ := entered_observed p k s
  rw [ranPrim, (afterPrim_observed _ _ _).1, h, ← hentered]
  rfl

/-- One primitive of a command leaves the bus settled. -/
theorem tick_busSettled {s : State} {p : Place} {k : Nat} (hp : s.atPlace p k) (hq : s.seq = .path p k)
    (hs : s.busSettled) : (tick p k s).busSettled := by
  obtain ⟨hk, -, known, -, -⟩ := (State.atPlace_iff _ _ _).mp hp
  unfold tick
  split
  · obtain ⟨hopen, hrestart⟩ := (State.busSettled_path hq).mp hs
    have released (hstart : p.opened = false ∨ p = .readRegRestart) (hk1 : k + 1 ≤ 1) :
        (ranPrim p k s).drivers = (.released, s.drivers.2) := by
      obtain rfl : k = 0 := by omega
      exact ranPrim_drivers_of_sdaRel (nextPrim_zero_of_start hstart s)
    exact (State.busSettled_path rfl).mpr
      ⟨fun ho hk1 => (released (.inl ho) hk1).trans (by rw [hopen ho (by omega)]),
        fun hr hk1 => (released (.inr hr) hk1).trans (by rw [hrestart hr (by omega)])⟩
  · have hlast : primCount (p.op s) = k + 1 := by omega
    have keeps := ranPrim_keeps p k s
    have hop : p.op (ranPrim p k s) = p.op s := p.op_congr keeps.idx keeps.len
    refine nextPlace_busSettled (by rw [hop, hlast]; exact known.ranPrim hk) ?_
    rintro rfl
    obtain rfl : k = 1 := by injection hlast.symm
    exact Prod.ext (known.sda _ rfl) rfl

/-- No command begins with the repeated start. -/
theorem firstPlace_ne_restart (c : Command) : firstPlace c ≠ .readRegRestart := by cases c <;> nofun

/-- Settles O52: a command ends at rest, and each of the six ways to step keeps the bus settled. -/
theorem busStaysSettled : Obligations.BusStaysSettled := by
  refine ⟨fun c s t he => ?command, fun s t hinv hs hstep => ?step⟩
  case command =>
    obtain rfl := afterInstr_of_exec he
    obtain ⟨hd, -, -, hq⟩ := afterInstr_command_atRest c s
    exact (State.busSettled_iff_released (.inl hq)).mpr hd
  case step =>
    cases step_cases hstep with
    | stay hq ht => exact ht ▸ hs
    | host hq a ha =>
      obtain ⟨hd, hseq⟩ := perform_observed ha
      rw [State.busSettled_iff_released (.inl hq)] at hs
      exact (State.busSettled_iff_released (hseq.imp_left (·.trans hq))).mpr (hd.trans hs)
    | reentrant hq a ha =>
      obtain ⟨b, rfl⟩ := perform_busy (s := s.hostTaken) (hinv.busy_of_running hq) ha
      exact hs
    | whole code i u hq hd he ht =>
      obtain ⟨-, -, -, c, rfl⟩ := hinv.command_of_op hq
      obtain rfl : c.instr = i := Except.ok.inj ((decode_encode _).symm.trans hd)
      obtain rfl := afterInstr_of_exec he
      exact ht ▸ State.endCommand_busSettled (afterInstr_command_atRest c s).1
    | first code c hq hd ht =>
      obtain ⟨-, htxn, hcmd, -⟩ := hinv.command_of_op hq
      rw [State.busSettled_iff_released (.inr ⟨code, hq⟩)] at hs
      have hentry : (s.setSeq (.path (firstPlace c) 0)).busSettled :=
        (State.busSettled_path rfl).mpr ⟨fun _ _ => hs, fun hr => absurd hr (firstPlace_ne_restart c)⟩
      rw [ht, ← tick_setSeq _ _ _ (.path (firstPlace c) 0)]
      exact tick_busSettled (atPlace_firstPlace htxn (hcmd.trans (encode_of_decode hd).symm)) rfl hentry
    | prim p k hq ht => exact ht ▸ tick_busSettled (hinv.atPlace hq) hq hs

end Sys2Proof.Machine
end

section
/-! # The byte transfers (42_byte_transfer.md R110, R111, R113)

Each transfer as one record update. A received byte is known by its bits from the top: bit `7 - k` is the
`k`-th answer, and a byte with those bits is the byte received. -/

namespace Sys2Proof.Machine

/-- A line some peer drives low answers 0 (20_memory.md R46). -/
theorem State.answer_of_drivesLow {s : State} {k : Nat} (h : s.peerAt k = .drivesLow) :
    s.answer k = false :=
  (lineLevelIsWiredAnd _ _ _ _).1 (.inr h)

/-- A line nobody drives answers the level of its pull-up (20_memory.md R46). -/
theorem State.answer_of_pulledUp {s : State} {k : Nat} (hp : s.peerAt k = .released)
    (hu : s.params.pullup = true) : s.answer k = true :=
  (lineLevelIsWiredAnd _ _ _ _).2.1 ⟨rfl, hp, hu⟩

/-- The block alone puts a bit on a pulled-up line as it is (30_encoding.md R63). -/
theorem lineLevel_of_bit (bit : Bool) :
    lineLevel (if bit then .released else .drivenLow) .released true false = bit := by
  cases bit <;> rfl

theorem byteBits_eq_map (b : Byte) : byteBits b = (List.range 8).map fun k => b.getLsbD (7 - k) := rfl

/-- The first sample is bit 7 of the byte, the eighth bit 0 (42_byte_transfer.md R113 c). -/
theorem State.getLsbD_answerByte (s : State) (n : Nat) {k : Nat} (hk : k < 8) :
    (s.answerByte n).getLsbD (7 - k) = s.answer (n + k) := by
  have hbits : byteBits (s.answerByte n) = (List.range 8).map fun k => s.answer (n + k) :=
    s.byteBits_answerByte n
  rw [byteBits_eq_map] at hbits
  exact List.map_inj_left.mp hbits k (List.mem_range.mpr hk)

/-- A byte whose bits from the top are the answers is the byte received. -/
theorem State.answerByte_eq_of_bits {s : State} {n : Nat} {b : Byte}
    (h : ∀ k < 8, s.answer (n + k) = b.getLsbD (7 - k)) : s.answerByte n = b := by
  refine BitVec.eq_of_getLsbD_eq fun i hi => ?_
  obtain ⟨k, hk, rfl⟩ : ∃ k, k < 8 ∧ i = 7 - k := ⟨7 - i, by omega, by omega⟩
  exact (s.getLsbD_answerByte n hk).trans (h k hk)

theorem drivenCell_samples (bit : Bool) : Trace.samples (drivenCell bit) = 0 := by cases bit <;> rfl

theorem sampledCell_samples (v : Bool) : Trace.samples (sampledCell v) = 1 := rfl

theorem wbyteEvents_samples (b : Byte) (v : Bool) : Trace.samples (wbyteEvents b v) = 1 := by
  simp only [wbyteEvents, byteBits, List.flatMap_cons, List.flatMap_nil, List.append_nil,
    Trace.samples_append, drivenCell_samples, sampledCell_samples]

theorem rbyteEvents_samples (b : Byte) (a : Bool) : Trace.samples (rbyteEvents b a) = 8 := by
  simp only [rbyteEvents, byteBits, List.flatMap_cons, List.flatMap_nil, List.append_nil,
    Trace.samples_append, drivenCell_samples, sampledCell_samples]
  rfl

/-- Settles O15: WBYTE as one record update, the level of the line at its sample, and its events. -/
theorem wbyteSendsByte : Obligations.WbyteSendsByte := by
  intro s
  refine ⟨congrArg Host.Outcome.next (s.sendByte_eq s.shr), rfl, rfl, fun hp hu => ?absent,
    fun hp => ?heldLow, fun b v => ?events⟩
  case absent => rw [State.answer_of_pulledUp hp hu, Bool.not_true]
  case heldLow => rw [State.answer_of_drivesLow hp, Bool.not_false]
  case events =>
    exact ⟨wbyteEvents_length b v, wbyteEvents_waits b v, wbyteEvents_samples b v,
      fun d => Trace.markers_of_effect (wbyteEvents_effect d b v)⟩

/-- Settles O16: RBYTE as one record update, the levels of the line at its samples, and its events. -/
theorem rbyteReceivesByte : Obligations.RbyteReceivesByte := by
  intro s a
  refine ⟨congrArg Host.Outcome.next (s.recvByte_eq a), ?code, rfl, fun hp hu => ?absent,
    fun hp => ?heldLow, fun b => ?events⟩
  case code => cases a <;> rfl
  case absent =>
    have ones : ∀ k < 8, (0xFF : Byte).getLsbD (7 - k) = true := by decide
    refine State.answerByte_eq_of_bits fun k hk => ?_
    rw [Nat.zero_add, State.answer_of_pulledUp (hp k hk) hu, ones k hk]
  case heldLow =>
    refine State.answerByte_eq_of_bits fun k hk => ?_
    rw [Nat.zero_add, State.answer_of_drivesLow (hp k hk)]
    exact BitVec.getLsbD_zero.symm
  case events =>
    exact ⟨rbyteEvents_length b a, rbyteEvents_waits b a, rbyteEvents_samples b a,
      fun d => Trace.markers_of_effect (rbyteEvents_effect d b a)⟩

/-- Settles O17: bit `7 - k` of the byte received is the `k`-th answer, and those bits are the byte. -/
theorem receivedBitsAreTheSamples : Obligations.ReceivedBitsAreTheSamples := by
  intro s a
  have received : (s.recvByte a).shr = s.answerByte 0 := congrArg State.shr (s.recvByte_eq a)
  refine ⟨_, exec_eq_afterInstr (.rbyte a) s, fun k hk => ?bit, fun b hsent => ?roundTrip⟩
  case bit =>
    have hbit := s.getLsbD_answerByte 0 hk
    rwa [← received, Nat.zero_add] at hbit
  case roundTrip =>
    refine received.trans (State.answerByte_eq_of_bits fun k hk => ?_)
    rw [Nat.zero_add, hsent k hk, lineLevel_of_bit]

end Sys2Proof.Machine
end

section
/-! # Transfers as whole states (43_transfer_commands.md R120 to R124)

Every sent byte acknowledged: `State.startAcked` and the STOP. A byte not acknowledged: `State.nackedAt`, from
which what comes before that byte is taken back to the state before the command, phase by phase. -/

namespace Sys2Proof.Machine

/-! ## Every sent byte acknowledged -/

/-- START, the bytes `l`, each acknowledged, and the STOP of a success, whole. -/
theorem State.startAcked_succeed (s : State) (l : List Byte) :
    (s.startAcked l).succeed =
      { s with sdaDrv := .released, sclDrv := .released, txnOpen := false, busy := false, seq := .idle,
               ok := true, ackf := true, smp := false, shr := 0, bitcnt := 8,
               peer := s.peer.drop l.length, samples := s.samples + l.length,
               trace := s.trace ++ (startEvents ++ ackedBytes l ++ stopEvents) } := by
  rw [State.succeed_eq]
  simp only [State.startAcked, List.append_assoc]

theorem Count.ofNat_toNat (n : Count) : BitVec.ofNat 8 n.toNat = n := by
  rw [BitVec.ofNat_toNat, BitVec.setWidth_eq]

theorem State.length_writeBytes (s : State) : s.writeBytes.length = s.len.toNat + 1 := by
  rw [State.writeBytes, List.length_cons, List.length_map, List.length_range]

/-- Settles O20: WRITE's loop as one record update, and the STOP. -/
theorem writeAllAcknowledged : Obligations.WriteAllAcknowledged := by
  intro s h
  refine congrArg Host.Outcome.next ((State.runWrite_of_acked h).trans ?_)
  rw [State.writeAt, State.startAcked_succeed, Count.ofNat_toNat, ← State.writeBytes, s.length_writeBytes]
  rfl

/-- Settles O23: three bytes acknowledged, and the STOP. -/
theorem writeRegAllAcknowledged : Obligations.WriteRegAllAcknowledged := fun s h =>
  congrArg Host.Outcome.next ((State.runWriteReg_of_acked h).trans (s.startAcked_succeed _))

/-- Settles O26: READ's loop as one record update, and the STOP. -/
theorem readReceivesBytes : Obligations.ReadReceivesBytes := by
  intro s h
  refine congrArg Host.Outcome.next ((State.runRead_of_goesOn h).trans ?_)
  have hlen : s.len.toNat = 0 ↔ s.len = 0 := (BitVec.toNat_eq (x := s.len) (y := 0)).symm
  rw [State.succeed_eq]
  simp only [State.readAt, State.readEvents, Count.ofNat_toNat, hlen, List.append_assoc]

/-- Settles O29: the two halves around the repeated start, each as one record update, RBYTE and the STOP. -/
theorem readRegAllAcknowledged : Obligations.ReadRegAllAcknowledged := by
  intro s h
  refine congrArg Host.Outcome.next ((State.runReadReg_of_acked h).trans ?_)
  generalize hu : (s.startAcked [s.addrWriteByte, s.reg]).startAcked [s.addrReadByte] = u
  have hpeer : u.peer = s.peer.drop 3 := by rw [← hu]; exact List.drop_drop
  have hanswer : ∀ k, u.answer k = s.answer (3 + k) :=
    State.answer_later hpeer (by rw [← hu]; rfl) (by rw [← hu]; rfl)
  have hbyte : u.answerByte 0 = s.answerByte 3 := by simp only [State.answerByte, hanswer]
  unfold State.receiveVal
  simp only [State.recvByte_eq, State.succeed_eq, State.setVal, hbyte, hanswer, hpeer]
  rw [← hu]
  simp only [State.startAcked, List.drop_drop, List.append_assoc]
  rfl

/-! ## A sent byte not acknowledged -/

/-- `s` after a command whose byte `n` was the first not acknowledged: its events `ev`, the STOP, and what a
failure leaves (60_exceptions.md R141). -/
def State.nackedAt (s : State) (n : Nat) (ev : List Event) : State :=
  { s with sdaDrv := .released, sclDrv := .released, txnOpen := false, busy := false, seq := .idle, ok := false,
           ackf := false, smp := true, shr := 0, bitcnt := 8, peer := s.peer.drop (n + 1),
           samples := s.samples + (n + 1), trace := s.trace ++ (ev ++ stopEvents) }

theorem State.sendThen_of_nack {s : State} (h : s.answer 0 = true) (b : Byte) (k : State → State) :
    s.sendThen b k = (s.sendByte b).raiseNack :=
  if_neg (by rw [State.sendByte_eq, h]; exact Bool.false_ne_true)

/-- A byte that is not acknowledged, and the failure, whole. -/
theorem State.sendThen_nackedAt {s : State} (h : s.answer 0 = true) (b : Byte) (k : State → State) :
    s.sendThen b k = s.nackedAt 0 (wbyteEvents b true) := by
  rw [State.sendThen_of_nack h, State.sendByte_eq, State.raiseNack_eq, h]
  simp only [State.nackedAt, List.drop_one, List.append_assoc, Nat.zero_add, Bool.not_true]

/-- A failure after START, from before it. -/
theorem State.startCondition_nackedAt (s : State) (n : Nat) (ev : List Event) :
    s.startCondition.nackedAt n ev = s.nackedAt n (startEvents ++ ev) := by
  rw [State.startCondition_eq]
  simp only [State.nackedAt, List.append_assoc]

/-- A failure after START and acknowledged bytes, from before them. -/
theorem State.startAcked_nackedAt (s : State) (l : List Byte) (n : Nat) (ev : List Event) :
    (s.startAcked l).nackedAt n ev = s.nackedAt (l.length + n) (startEvents ++ ackedBytes l ++ ev) := by
  simp only [State.nackedAt, State.startAcked, List.drop_drop, List.append_assoc, Nat.add_assoc]

/-- START and a first byte that is not acknowledged. -/
theorem State.startCondition_sendThen_nackedAt {s : State} (h : s.answer 0 = true) (b : Byte)
    (k : State → State) :
    s.startCondition.sendThen b k = s.nackedAt 0 (startEvents ++ wbyteEvents b true) := by
  have hfirst : s.startCondition.answer 0 = true := by rw [State.startCondition_eq]; exact h
  rw [State.sendThen_nackedAt hfirst, State.startCondition_nackedAt]

/-- One byte more, not acknowledged. -/
theorem State.startAcked_sendThen_nackedAt {s : State} {l : List Byte} (h : s.answer l.length = true) (b : Byte)
    (k : State → State) :
    (s.startAcked l).sendThen b k
      = s.nackedAt l.length (startEvents ++ ackedBytes l ++ wbyteEvents b true) := by
  have hnext : (s.startAcked l).answer 0 = true := by rw [State.answer_startAcked]; exact h
  rw [State.sendThen_nackedAt hnext, State.startAcked_nackedAt, Nat.add_zero]

/-- Settles O21: START and the address byte, not acknowledged. -/
theorem writeAddressNack : Obligations.WriteAddressNack := fun s h => by
  have hfail := State.startCondition_sendThen_nackedAt h s.addrWriteByte fun t =>
    State.writeLoop t.len.toNat (t.setIdx 0)
  rw [State.nackedAt, List.drop_one] at hfail
  exact congrArg Host.Outcome.next hfail

/-- The byte WRITE sends next is data byte `j`. -/
theorem State.txByte_writeAt {s : State} {j : Nat} (hj : j < s.len.toNat) :
    (s.writeAt j).txByte (s.writeAt j).idx.toNat = s.txByte j := by
  have hidx : (BitVec.ofNat 8 j).toNat = j := by
    rw [BitVec.toNat_ofNat, Nat.mod_eq_of_lt (Nat.lt_trans hj s.len.isLt)]
  exact congrArg s.txByte hidx

/-- A pass of WRITE's loop whose byte `i` is not acknowledged. -/
theorem State.writeLoop_nackedAt {s : State} {i : Nat} (hi : i < s.len.toNat) (h : s.answer (i + 1) = true)
    (n : Nat) :
    State.writeLoop (n + 1) (s.writeAt i) = (s.setIdx (BitVec.ofNat 8 i)).nackedAt (i + 1)
      (startEvents ++ ackedBytes (s.writeBytes.take (i + 1)) ++ wbyteEvents (s.txByte i) true) := by
  have hsent : s.writeBytes.take (i + 1) = s.addrWriteByte :: (List.range i).map s.txByte := by
    rw [State.writeBytes, List.take_succ_cons, ← List.map_take, List.take_range, Nat.min_eq_left hi.le]
  have hlen : (s.writeBytes.take (i + 1)).length = i + 1 := by
    rw [List.length_take, s.length_writeBytes, Nat.min_eq_left (Nat.succ_le_succ hi.le)]
  have hnack : (s.setIdx (BitVec.ofNat 8 i)).answer (s.writeBytes.take (i + 1)).length = true := by
    rw [hlen]
    exact h
  rw [State.writeLoop, State.txByte_writeAt hi, State.writeAt, ← hsent,
    State.startAcked_sendThen_nackedAt hnack, hlen]

/-- WRITE's loop from byte `j` on up to byte `i`, the first that is not acknowledged. -/
theorem State.writeLoop_of_nack {s : State} {i j n : Nat} (hjn : j + n = s.len.toNat) (hi : i < s.len.toNat)
    (hji : j ≤ i) (h : ∀ k ≤ i, s.answer k = false) (hnack : s.answer (i + 1) = true) :
    State.writeLoop n (s.writeAt j) = (s.setIdx (BitVec.ofNat 8 i)).nackedAt (i + 1)
      (startEvents ++ ackedBytes (s.writeBytes.take (i + 1)) ++ wbyteEvents (s.txByte i) true) := by
  induction n generalizing j with
  | zero => omega
  | succ n ih =>
    obtain hlt | rfl : j < i ∨ j = i := by omega
    · rw [State.writeLoop_writeAt (by omega) (h _ (by omega)), ih (by omega) hlt]
    · exact State.writeLoop_nackedAt hi hnack n

/-- Settles O22: WRITE's loop up to the byte that is not acknowledged. -/
theorem writeDataNack : Obligations.WriteDataNack := by
  intro s i hi h hnack
  refine congrArg Host.Outcome.next (?_ : s.runWrite = _)
  unfold State.runWrite
  rw [State.startCondition_sendThen (h 0 (Nat.zero_le i))]
  exact State.writeLoop_of_nack (j := 0) (Nat.zero_add _) hi (Nat.zero_le i) h hnack

/-- Settles O24: the bytes before byte `i` acknowledged one after another, then the failure. -/
theorem writeRegNack : Obligations.WriteRegNack := by
  intro s i b hb h hnack
  refine congrArg Host.Outcome.next (?_ : s.runWriteReg = s.nackedAt i
    (startEvents ++ ackedBytes ([s.addrWriteByte, s.reg, s.val].take i) ++ wbyteEvents b true))
  unfold State.runWriteReg
  match i, hb with
  | 0, rfl => exact State.startCondition_sendThen_nackedAt hnack _ _
  | 1, rfl =>
    rw [State.startCondition_sendThen (h 0 (by decide))]
    exact State.startAcked_sendThen_nackedAt hnack _ _
  | 2, rfl =>
    rw [State.startCondition_sendThen (h 0 (by decide)), State.startAcked_sendThen (h 1 (by decide))]
    exact State.startAcked_sendThen_nackedAt hnack _ _

/-- Settles O27: START and the address byte, not acknowledged, end READ. -/
theorem readAddressNackAborts : Obligations.ReadAddressNackAborts := by
  intro s hnack hpolicy
  have haborts : ¬ s.readGoesOn := by simp [State.readGoesOn, hnack, hpolicy]
  refine congrArg Host.Outcome.next ((State.runRead_of_not_goesOn haborts).trans ?_)
  rw [State.startByte_eq, State.raiseNack_eq, hnack]
  simp only [List.append_assoc, Bool.not_true]

/-- Settles O30: the bytes before byte `i` acknowledged one after another, the repeated start before the third,
then the failure. -/
theorem readRegNack : Obligations.ReadRegNack := by
  intro s i ev hev h hnack
  refine congrArg Host.Outcome.next (?_ : s.runReadReg = s.nackedAt i ev)
  unfold State.runReadReg
  match i, hev with
  | 0, rfl => exact State.startCondition_sendThen_nackedAt hnack _ _
  | 1, rfl =>
    rw [State.startCondition_sendThen (h 0 (by decide))]
    exact State.startAcked_sendThen_nackedAt hnack _ _
  | 2, rfl =>
    have hagain : (s.startAcked [s.addrWriteByte, s.reg]).answer 0 = true := by
      rw [State.answer_startAcked]
      exact hnack
    rw [State.startCondition_sendThen (h 0 (by decide)), State.startAcked_sendThen (h 1 (by decide)),
      List.append_assoc _ startEvents]
    exact (State.startCondition_sendThen_nackedAt hagain _ _).trans (State.startAcked_nackedAt ..)

/-! ## BEGIN -/

/-- Settles O19: two releases, whose markers each of the four driver states shows. -/
theorem beginReleasesBothLines : Obligations.BeginReleasesBothLines := by
  intro s
  refine ⟨?_, rfl, fun d => ?_⟩
  · rw [exec_eq_afterInstr, afterInstr, State.sdaRel_eq, State.sclRel_eq, State.endCommand_eq,
      List.append_assoc]
    rfl
  · obtain ⟨a, b⟩ := d
    cases a <;> cases b <;> decide

end Sys2Proof.Machine
end

section
/-! # The lengths of the commands (43_transfer_commands.md R126)

Events and waits are counted together, phase by phase, in the traces of the whole states. -/

namespace Sys2Proof.Machine

/-- The number of events and of waits of a trace. -/
def Trace.size (l : List Event) : Nat × Nat := (l.length, Trace.waits l)

@[simp] theorem Trace.size_append (l m : List Event) :
    Trace.size (l ++ m) = Trace.size l + Trace.size m :=
  Prod.ext List.length_append (Trace.waits_append l m)

/-- Pieces of one size, one after another. -/
theorem Trace.size_flatMap {α : Type} {f : α → List Event} {c : Nat × Nat} (h : ∀ x, Trace.size (f x) = c)
    (l : List α) : Trace.size (l.flatMap f) = l.length • c := by
  induction l with
  | nil => exact (zero_nsmul c).symm
  | cons x rest ih =>
    rw [List.flatMap_cons, Trace.size_append, h, ih, List.length_cons, succ_nsmul']

@[simp] theorem startEvents_size : Trace.size startEvents = (7, 3) := rfl

@[simp] theorem stopEvents_size : Trace.size stopEvents = (6, 3) := rfl

@[simp] theorem wbyteEvents_size (b : Byte) (v : Bool) : Trace.size (wbyteEvents b v) = (55, 27) :=
  Prod.ext (wbyteEvents_length b v) (wbyteEvents_waits b v)

@[simp] theorem rbyteEvents_size (b : Byte) (a : Bool) : Trace.size (rbyteEvents b a) = (63, 27) :=
  Prod.ext (rbyteEvents_length b a) (rbyteEvents_waits b a)

@[simp] theorem ackedBytes_size (l : List Byte) : Trace.size (ackedBytes l) = l.length • (55, 27) :=
  Trace.size_flatMap (fun b => wbyteEvents_size b false) l

@[simp] theorem State.readEvents_size (s : State) : Trace.size s.readEvents = s.len.toNat • (63, 27) := by
  rw [State.readEvents, Trace.size_flatMap fun _ => rbyteEvents_size .., List.length_range]

/-- A command whose whole state is known emits as many events and waits as stand in its trace. -/
theorem emits_of_exec {i : Instr} {s t : State} {ev : List Event} {events waits : Nat}
    (hexec : exec i s = .next t) (htrace : t.trace = s.trace ++ ev) (hsize : Trace.size ev = (events, waits)) :
    ∃ t, exec i s = .next t ∧ emits s t events waits :=
  ⟨t, hexec, ev, htrace, Prod.mk.inj hsize⟩

/-- The bytes before the second are acknowledged. -/
theorem State.acked_lt_one {s : State} (h : s.answer 0 = false) : ∀ k < 1, s.answer k = false :=
  fun _ hk => Nat.lt_one_iff.mp hk ▸ h

/-- The bytes before the third are acknowledged. -/
theorem State.acked_lt_two {s : State} (h : s.answer 0 = false) (h' : s.answer 1 = false) :
    ∀ k < 2, s.answer k = false := by
  intro k hk
  obtain rfl | rfl : k = 0 ∨ k = 1 := by omega
  · exact h
  · exact h'

/-- Settles O34: the sizes of the traces that the whole states give. -/
theorem commandLengths : Obligations.CommandLengths := by
  intro s
  have hbyte (b : Byte) : Trace.size (startEvents ++ wbyteEvents b true ++ stopEvents) = (68, 33) := by simp
  refine ⟨?begin, fun h => ?write, fun h => ?writeAddr, fun i hi h h' => ?writeData, fun h => ?writeReg,
    fun h => ?writeReg0, fun h h' => ?writeReg1, fun h h' h'' => ?writeReg2, fun h => ?read,
    fun h h' => ?readAddr, fun h => ?readReg, fun h => ?readReg0, fun h h' => ?readReg1,
    fun h h' h'' => ?readReg2⟩
  case begin => exact emits_of_exec (beginReleasesBothLines s).1 rfl rfl
  case write =>
    refine emits_of_exec (writeAllAcknowledged s h) rfl ?_
    simp [s.length_writeBytes]
    omega
  case writeAddr => exact emits_of_exec (writeAddressNack s h) rfl (hbyte _)
  case writeData =>
    refine emits_of_exec (writeDataNack s i hi h h') rfl ?_
    simp [s.length_writeBytes]
    omega
  case writeReg => exact emits_of_exec (writeRegAllAcknowledged s h) rfl (by simp)
  case writeReg0 => exact emits_of_exec (writeRegNack s 0 _ rfl nofun h) rfl (by simp)
  case writeReg1 => exact emits_of_exec (writeRegNack s 1 _ rfl (State.acked_lt_one h) h') rfl (by simp)
  case writeReg2 => exact emits_of_exec (writeRegNack s 2 _ rfl (State.acked_lt_two h h') h'') rfl (by simp)
  case read =>
    refine emits_of_exec (readReceivesBytes s h) rfl ?_
    simp
    omega
  case readAddr => exact emits_of_exec (readAddressNackAborts s h h') rfl (hbyte _)
  case readReg => exact emits_of_exec (readRegAllAcknowledged s h) rfl (by simp)
  case readReg0 => exact emits_of_exec (readRegNack s 0 _ rfl nofun h) rfl (by simp)
  case readReg1 => exact emits_of_exec (readRegNack s 1 _ rfl (State.acked_lt_one h) h') rfl (by simp)
  case readReg2 => exact emits_of_exec (readRegNack s 2 _ rfl (State.acked_lt_two h h') h'') rfl (by simp)

end Sys2Proof.Machine
end

section
/-! # The markers of the transfer commands (43_transfer_commands.md R125, 90_conflicts.md C4)

The monitor reads a symbol at each marker, so the symbols of a transaction count its markers. -/

namespace Sys2Proof.Machine

/-- The monitor follows the drivers. -/
theorem Monitor.next_drivers (m : Monitor) (e : Event) : (m.next e).1.drivers = e.drivers m.drivers := by
  unfold Monitor.next
  dsimp only
  split
  · rfl
  · split
    · rfl
    · cases e with
      | sclRel => dsimp only; split <;> rfl
      | _ => rfl

theorem Event.not_isStop_of_isStart {d : Drivers} {e : Event} (h : e.isStart d = true) : e.isStop d = false := by
  cases e with
  | sdaLow => rfl
  | _ => cases h

/-- The monitor reads a marker exactly at a marker (30_encoding.md R65). -/
theorem Monitor.next_count (m : Monitor) (e : Event) :
    (m.next e).2.count .start = (if e.isStart m.drivers then 1 else 0)
      ∧ (m.next e).2.count .stop = if e.isStop m.drivers then 1 else 0 := by
  unfold Monitor.next
  dsimp only
  split
  · rename_i h
    simp [Event.not_isStop_of_isStart h]
  · split
    · simp
    · cases e with
      | sclRel => dsimp only; split <;> exact ⟨rfl, rfl⟩
      | sclLow => cases m.pulse <;> exact ⟨rfl, rfl⟩
      | _ => exact ⟨rfl, rfl⟩

/-- The symbols a monitor reads count the markers. -/
theorem Monitor.effect_eq (m : Monitor) (l : List Event) :
    Trace.effect m.drivers l = ((m.after l).drivers, (m.read l).count .start, (m.read l).count .stop) := by
  induction l generalizing m with
  | nil => rfl
  | cons e rest ih =>
    have hrest := ih (m.next e).1
    rw [Monitor.next_drivers] at hrest
    obtain ⟨hstart, hstop⟩ := m.next_count e
    simp only [Trace.effect, Prod.mk.injEq] at hrest ⊢
    obtain ⟨hd, hs, hp⟩ := hrest
    simp only [Trace.drivers, Trace.starts, Trace.stops, Monitor.read, Monitor.after, List.count_append, hd, hs,
      hp, hstart, hstop, and_self]

/-- What a list of events carries counts its markers. -/
theorem Carries.effect {ev : List Event} {sym : List Symbol} (h : Carries ev sym) (d : Drv) :
    ∃ d', Trace.effect (d, .drivenLow) ev = ((d', .drivenLow), sym.count .start, sym.count .stop) := by
  obtain ⟨hread, d', hafter⟩ := h d
  refine ⟨d', (Monitor.effect_eq (.clockLow d) ev).trans ?_⟩
  rw [hread, hafter]
  rfl

/-- Bytes and their acknowledge slots are no markers. -/
theorem groupSymbols_no_marker (l : List (Byte × Bool)) :
    (groupSymbols l).count .start = 0 ∧ (groupSymbols l).count .stop = 0 := by
  constructor <;> simp [List.count_eq_zero, groupSymbols, byteSymbols]

/-- STOP up to its marker: SDA low and SCL released. -/
def stopEntry : List Event := [.sdaLow, .wait, .sclRel, .wait]

theorem stopEntry_effect (d : Drv) :
    Trace.effect (d, .drivenLow) stopEntry = ((.drivenLow, .released), 0, 0) := by
  cases d <;> decide

/-- `s` ends as `t` after START, events that carry no stop and one start fewer than `n`, and the STOP. -/
def State.StopsOnce (s t : State) (n : Nat) : Prop :=
  ∃ ev sym, t.trace = s.trace ++ (startEvents ++ (ev ++ stopEvents)) ∧ Carries ev sym
    ∧ sym.count .start + 1 = n ∧ sym.count .stop = 0

/-- The markers of a transaction: those of START, of what it carries, and the STOP's at its last SDA event. -/
theorem State.StopsOnce.markers {s t : State} {n : Nat} (h : s.StopsOnce t n)
    (hidle : s.drivers = (.released, .released)) :
    ∃ ev, t.trace = s.trace ++ ev ++ [.sdaRel, .wait] ∧ Trace.stops s.drivers ev = 0
      ∧ Trace.stops s.drivers (ev ++ [.sdaRel, .wait]) = 1
      ∧ Trace.starts s.drivers (ev ++ [.sdaRel, .wait]) = n := by
  obtain ⟨ev, sym, htrace, hev, hstart, hstop⟩ := h
  obtain ⟨d, heffect⟩ := hev.effect .drivenLow
  have hopen := startEvents_effect (.released, .released)
  rw [if_neg nofun] at hopen
  have hentry := Trace.effect_append hopen (Trace.effect_append heffect (stopEntry_effect d))
  have hclose : Trace.effect (.drivenLow, .released) [.sdaRel, .wait] = ((.released, .released), 0, 1) := by
    decide
  obtain ⟨-, hnone⟩ := Trace.markers_of_effect hentry
  obtain ⟨hstarts, hone⟩ := Trace.markers_of_effect (Trace.effect_append hentry hclose)
  rw [hidle]
  refine ⟨startEvents ++ (ev ++ stopEntry), ?_, ?_, ?_, ?_⟩
  · rw [htrace, List.append_assoc, List.append_assoc, List.append_assoc]
    rfl
  · omega
  · omega
  · omega

/-- A transaction of bytes alone makes one start marker. -/
theorem State.StopsOnce.of_bytes {s t : State} {ev : List Event} {l : List (Byte × Bool)}
    (htrace : t.trace = s.trace ++ (startEvents ++ (ev ++ stopEvents))) (hev : Carries ev (groupSymbols l)) :
    s.StopsOnce t 1 := by
  obtain ⟨hstart, hstop⟩ := groupSymbols_no_marker l
  exact ⟨ev, _, htrace, hev, by rw [hstart], hstop⟩

/-- A transfer with no repeated start makes one start marker. -/
theorem State.Finishes.stopsOnce {s u : State} {b : Byte} (h : (s.startCondition.sendByte b).Finishes 0 u) :
    s.StopsOnce u 1 := by
  obtain ⟨ev, ack, data, again, htrace, hev, hn, -⟩ := h.startByte
  obtain rfl : again = [] := List.length_eq_zero_iff.mp (Nat.le_zero.mp hn)
  rw [List.flatMap_nil, List.append_nil] at hev
  exact .of_bytes htrace hev

/-- A byte that is not acknowledged, before any repeated start. -/
theorem State.nackedAt_stopsOnce (s : State) (l : List Byte) (b : Byte) (n : Nat) :
    s.StopsOnce (s.nackedAt n (startEvents ++ ackedBytes l ++ wbyteEvents b true)) 1 := by
  have hbyte : Carries (wbyteEvents b true) (groupSymbols [(b, false)]) := by
    rw [groupSymbols_singleton]
    exact wbyteEvents_carries b true
  refine .of_bytes (ev := ackedBytes l ++ wbyteEvents b true) (l := l.map (·, true) ++ [(b, false)]) ?_ ?_
  · simp only [State.nackedAt, List.append_assoc]
  · rw [groupSymbols, List.flatMap_append]
    exact (ackedBytes_carries l).append hbyte

/-- A repeated start adds one start marker. -/
theorem State.StopsOnce.of_restart {s u : State} {l : List Byte} {n : Nat} (h : (s.startAcked l).StopsOnce u n) :
    s.StopsOnce u (n + 1) := by
  obtain ⟨ev, sym, htrace, hev, hstart, hstop⟩ := h
  obtain ⟨hstart', hstop'⟩ := groupSymbols_no_marker (l.map (·, true))
  refine ⟨_, _, ?_, (ackedBytes_carries l).append (startEvents_carries.append hev), ?_, ?_⟩
  · rw [htrace]
    simp only [State.startAcked, List.append_assoc]
  · rw [List.count_append, List.count_append, hstart', List.count_singleton_self]
    omega
  · rw [List.count_append, List.count_append, hstop', hstop]
    rfl

/-- READ_REG makes a repeated start once its register pointer is acknowledged, whatever comes after it. -/
theorem State.runReadReg_stopsOnce (s : State) :
    s.StopsOnce s.runReadReg (if s.answer 0 = false ∧ s.answer 1 = false then 2 else 1) := by
  unfold State.runReadReg
  cases haddr : s.answer 0 with
  | true =>
    rw [State.startCondition_sendThen_nackedAt haddr, if_neg nofun]
    exact s.nackedAt_stopsOnce [] s.addrWriteByte 0
  | false =>
    rw [State.startCondition_sendThen haddr]
    cases hreg : s.answer 1 with
    | true =>
      rw [State.startAcked_sendThen_nackedAt hreg, if_neg nofun]
      exact s.nackedAt_stopsOnce [s.addrWriteByte] s.reg 1
    | false =>
      rw [State.startAcked_sendThen hreg, if_pos ⟨rfl, rfl⟩]
      exact (State.finishes_sendThen State.finishes_receiveVal _ _).stopsOnce.of_restart

/-- The start markers of every transfer command, and its one stop marker. -/
theorem afterInstr_stopsOnce {c : Command} (hc : c ≠ .begin) (s : State) :
    s.StopsOnce (afterInstr c.instr s)
      (if c = .readReg ∧ s.answer 0 = false ∧ s.answer 1 = false then 2 else 1) := by
  by_cases hread : c = .readReg
  · subst hread
    simp only [true_and]
    exact s.runReadReg_stopsOnce
  · have hfinish := afterInstr_finishes hc s
    rw [if_neg hread] at hfinish
    rw [if_neg (fun h => hread h.1)]
    exact hfinish.stopsOnce

/-- Settles O35: what a transaction carries, and the markers the monitor reads of it. -/
theorem oneStopPerTransaction : Obligations.OneStopPerTransaction := by
  intro c s hc hidle
  obtain ⟨ev, htrace, hnone, hone, hstarts⟩ := (afterInstr_stopsOnce hc s).markers hidle
  exact ⟨_, ev, exec_eq_afterInstr c.instr s, htrace, hnone, hone, hstarts⟩

end Sys2Proof.Machine
end

section
/-! # The failure of a transfer (60_exceptions.md R141, R142)

A transfer command looks at the acknowledge of some of the bytes it sends. If each of them is acknowledged it
succeeds, and the first of them that is not ends it as `State.nackedAt` says. -/

namespace Sys2Proof.Machine

/-- How many of the bytes a command sends end it when they are not acknowledged, counted from its first byte:
the table of R142. -/
def State.checkedBytes (s : State) : Command → Nat
  | .begin => 0
  | .write => s.len.toNat + 1
  | .read =>
    match s.params.policy with
    | .abort => 1
    | .legacy => 0
  | .writeReg => 3
  | .readReg => 3

/-- READ looks at its address byte's acknowledge under policy `abort` only (43_transfer_commands.md R123). -/
theorem State.lt_checkedBytes_read {s : State} {i : Nat} :
    i < s.checkedBytes .read ↔ s.params.policy = .abort ∧ i = 0 := by
  unfold State.checkedBytes
  cases s.params.policy with
  | abort => simp
  | legacy => simp

/-- `t` is `s` after a failure whose last sent byte was not acknowledged, but for `IDX`. -/
def State.NackEntry (s t : State) : Prop :=
  ∃ idx n ev b, t = (s.setIdx idx).nackedAt n (ev ++ wbyteEvents b true)

/-- The first of the bytes looked at that is not acknowledged ends the command. -/
theorem afterInstr_nackEntry {c : Command} {s : State} {i : Nat} (hi : i < s.checkedBytes c)
    (h : ∀ k < i, s.answer k = false) (hnack : s.answer i = true) :
    s.NackEntry (afterInstr c.instr s) := by
  cases c with
  | begin => exact absurd hi (Nat.not_lt_zero i)
  | write =>
    cases i with
    | zero =>
      have hend := writeAddressNack s hnack
      rw [← List.drop_one] at hend
      exact ⟨s.idx, 0, startEvents, s.addrWriteByte, afterInstr_of_exec hend⟩
    | succ j =>
      have hend := writeDataNack s j (Nat.lt_of_succ_lt_succ hi) (fun k hk => h k (Nat.lt_succ_of_le hk)) hnack
      exact ⟨BitVec.ofNat 8 j, j + 1, startEvents ++ ackedBytes (s.writeBytes.take (j + 1)), s.txByte j,
        afterInstr_of_exec hend⟩
  | read =>
    obtain ⟨hpolicy, rfl⟩ := State.lt_checkedBytes_read.mp hi
    have hend := readAddressNackAborts s hnack hpolicy
    rw [← List.drop_one] at hend
    exact ⟨s.idx, 0, startEvents, s.addrReadByte, afterInstr_of_exec hend⟩
  | writeReg =>
    exact ⟨s.idx, i, _, _, afterInstr_of_exec
      (writeRegNack s i _ (List.getElem?_eq_getElem hi) h hnack)⟩
  | readReg =>
    match i, hi with
    | 0, _ => exact ⟨s.idx, 0, _, _, afterInstr_of_exec (readRegNack s 0 _ rfl h hnack)⟩
    | 1, _ => exact ⟨s.idx, 1, _, _, afterInstr_of_exec (readRegNack s 1 _ rfl h hnack)⟩
    | 2, _ => exact ⟨s.idx, 2, _, _, afterInstr_of_exec (readRegNack s 2 _ rfl h hnack)⟩

/-- With every byte looked at acknowledged, a transfer succeeds. -/
theorem afterInstr_ok_of_acked {c : Command} (hc : c ≠ .begin) {s : State}
    (h : ∀ k < s.checkedBytes c, s.answer k = false) : (afterInstr c.instr s).ok = true := by
  cases c with
  | begin => exact absurd rfl hc
  | write =>
    exact congrArg State.ok (State.runWrite_of_acked fun k hk => h k (Nat.lt_succ_of_le hk))
  | read =>
    have hgo : s.readGoesOn := by
      cases hpolicy : s.params.policy with
      | abort => exact .inl (h 0 (State.lt_checkedBytes_read.mpr ⟨hpolicy, rfl⟩))
      | legacy => exact .inr hpolicy
    exact congrArg State.ok (State.runRead_of_goesOn hgo)
  | writeReg => exact congrArg State.ok (State.runWriteReg_of_acked h)
  | readReg => exact congrArg State.ok (State.runReadReg_of_acked h)

/-- Of the next `n` samples, some first one is high, or none is. -/
theorem State.acked_or_first_nack (s : State) (n : Nat) :
    (∀ k < n, s.answer k = false)
      ∨ ∃ i < n, (∀ k < i, s.answer k = false) ∧ s.answer i = true := by
  by_cases h : ∃ i < n, s.answer i = true
  · obtain ⟨hlt, hnack⟩ := Nat.find_spec h
    refine .inr ⟨Nat.find h, hlt, fun k hk => ?_, hnack⟩
    exact Bool.eq_false_of_not_eq_true fun hk' => Nat.find_min h hk ⟨hk.trans hlt, hk'⟩
  · exact .inl fun k hk => Bool.eq_false_of_not_eq_true fun hk' => h ⟨k, hk, hk'⟩

/-- Every transfer succeeds with each byte looked at acknowledged, or ends at the first that is not. -/
theorem afterInstr_outcome {c : Command} (hc : c ≠ .begin) (s : State) :
    ((∀ k < s.checkedBytes c, s.answer k = false) ∧ (afterInstr c.instr s).ok = true)
      ∨ (∃ k < s.checkedBytes c, s.answer k = true) ∧ s.NackEntry (afterInstr c.instr s) := by
  obtain h | ⟨i, hi, h, hnack⟩ := s.acked_or_first_nack (s.checkedBytes c)
  · exact .inl ⟨h, afterInstr_ok_of_acked hc h⟩
  · exact .inr ⟨⟨i, hi, hnack⟩, afterInstr_nackEntry hi h hnack⟩

theorem State.NackEntry.ok {s t : State} (h : s.NackEntry t) : t.ok = false := by
  obtain ⟨idx, n, ev, b, rfl⟩ := h
  rfl

/-- A transfer fails exactly when one of the bytes it looks at is not acknowledged. -/
theorem afterInstr_ok_eq_false_iff {c : Command} (hc : c ≠ .begin) (s : State) :
    (afterInstr c.instr s).ok = false ↔ ∃ k < s.checkedBytes c, s.answer k = true := by
  obtain ⟨hacked, hok⟩ | ⟨hnack, hentry⟩ := afterInstr_outcome hc s
  · refine iff_of_false (by simp [hok]) fun ⟨k, hk, hnack⟩ => ?_
    simp [hacked k hk] at hnack
  · exact iff_of_true hentry.ok hnack

/-- A byte that is not acknowledged ends with its sample, high, and the clock pulse's end. -/
theorem wbyteEvents_nack (b : Byte) :
    ∃ pre, wbyteEvents b true = pre ++ [.sample true, .sclLow, .wait] :=
  ⟨(byteBits b).flatMap drivenCell ++ [.sdaRel, .wait, .sclRel, .wait], by
    rw [List.append_assoc]
    rfl⟩

/-- Settles O32: BEGIN does not write `OK`, and a transfer fails on the bytes it looks at. -/
theorem nackRaisedOn : Obligations.NackRaisedOn := by
  intro s
  have fails {c : Command} (hc : c ≠ .begin) := afterInstr_ok_eq_false_iff hc s
  refine ⟨⟨_, exec_eq_afterInstr .begin s, rfl⟩, ⟨_, exec_eq_afterInstr .write s, ?write⟩,
    ⟨_, exec_eq_afterInstr .writeReg s, fails (c := .writeReg) nofun⟩,
    ⟨_, exec_eq_afterInstr .read s, ?read⟩,
    ⟨_, exec_eq_afterInstr .readReg s, fails (c := .readReg) nofun⟩⟩
  case write =>
    refine (fails (c := .write) nofun).trans ?_
    simp only [State.checkedBytes, Nat.lt_succ_iff]
  case read =>
    refine (fails (c := .read) nofun).trans ?_
    simp [State.lt_checkedBytes_read, and_assoc]

/-- Settles O33: a transfer that failed did so at the first byte not acknowledged. -/
theorem nackEntryIsPrecise : Obligations.NackEntryIsPrecise := by
  intro c s t hc h hfail
  obtain rfl := afterInstr_of_exec h
  obtain ⟨-, hok⟩ | ⟨-, idx, n, ev, b, hend⟩ := afterInstr_outcome hc s
  · rw [hok] at hfail
    cases hfail
  · obtain ⟨pre, hbyte⟩ := wbyteEvents_nack b
    rw [hend]
    refine ⟨rfl, rfl, rfl, rfl, rfl, rfl, rfl, rfl, rfl, rfl, rfl, ev ++ pre, ?_⟩
    simp only [State.nackedAt, State.setIdx, hbyte, List.append_assoc]

end Sys2Proof.Machine
end

section
/-! # Reset, and accesses the block does not allow (70_reset_and_hazards.md R160, R170, R171) -/

namespace Sys2Proof.Machine

/-- While `BUSY` = 1 an access that needs an idle block is refused (70_reset_and_hazards.md R170). -/
theorem perform_of_needsIdle {a : HostAccess} {s : State} (ha : a.needsIdle = true) (hb : s.busy = true) :
    perform a s = .refused .reentrantAccess := by
  simp [perform, ha, hb]

/-- While a command runs, an access at the head of the host's list that does not wait is the next step. -/
theorem step_reentrant {s : State} {a : HostAccess} {rest : List HostEvent} (hq : s.seq ≠ .idle)
    (hh : s.host = ⟨true, a⟩ :: rest) : step s = perform a s.hostTaken := by
  have ha : s.reentrant? = some a := by rw [State.reentrant?, hh]
  unfold step oneStep
  cases hs : s.seq with
  | idle => exact absurd hs hq
  | op code => simp only [ha]
  | path p k => simp only [ha]

/-- Settles O43: each of the six writes needs an idle block, and taking one from the list leaves `BUSY`. -/
theorem reentrantWritesRefused : Obligations.ReentrantWritesRefused := by
  intro s code v a n i hb acc hacc
  have hneeds : acc.needsIdle = true := by
    simp only [List.mem_cons, List.not_mem_nil, or_false] at hacc
    obtain rfl | rfl | rfl | rfl | rfl | rfl := hacc <;> rfl
  exact ⟨perform_of_needsIdle hneeds hb, fun rest hq hh =>
    (step_reentrant hq hh).trans (perform_of_needsIdle (s := s.hostTaken) hneeds hb)⟩

/-- Settles O44: the access needs no idle block, and where it is performed it is refused. -/
theorem foreignPinAccessRefused : Obligations.ForeignPinAccessRefused := fun s _ _ =>
  perform_of_not_needsIdle rfl s

/-- With no command running and no host access to come a step changes nothing. -/
theorem step_of_no_access {s : State} (hq : s.seq = .idle) (hh : s.host = []) : step s = .next s := by
  simp [step, oneStep, hq, hostStep, hh]

/-- Settles O45: the reset values by computation, and the step of an idle block. -/
theorem resetIsIdle : Obligations.ResetIsIdle :=
  ⟨rfl, rfl, rfl, rfl, rfl, fun _ => step_of_no_access⟩

end Sys2Proof.Machine
end

section
/-! # Where SDA changes (70_reset_and_hazards.md R178)

A primitive that drives SDA runs while SCL is known to be low, or it is START's or BEGIN's opening
release, which a settled bus has already made, or it is one of the two markers. -/

namespace Sys2Proof.Machine

/-- The two primitives that drive SDA (40_pin_driver.md R81, R82). -/
def DrivesSda (i : Instr) : Prop := i = .sdaLow ∨ i = .sdaRel

/-- Every other primitive leaves `SDA_DRV` as it was. -/
theorem drivesSda_of_runPrim {i : Instr} {s : State} (h : (runPrim i s).sdaDrv ≠ s.sdaDrv) :
    DrivesSda i := by
  cases i with
  | sdaLow => exact .inl rfl
  | sdaRel => exact .inr rfl
  | _ => exact absurd rfl h

/-- In a cell in which the block samples, SDA is released while SCL is low (42_byte_transfer.md R112). -/
theorem sampledCellScl_of_drivesSda : ∀ {k : Nat}, DrivesSda (sampledCellPrim k) →
    sampledCellScl k = .drivenLow
  | 0, _ => rfl
  | 1, h | 2, h | 3, h | 4, h | 5, h | _ + 6, h => h.elim nofun nofun

/-- In a cell in which the block drives a bit, SDA changes while SCL is low, RBYTE's closing release
included (42_byte_transfer.md R111, R112). -/
theorem drivenCellScl_of_drivesSda {bit : Bool} : ∀ {k : Nat}, DrivesSda (drivenCellPrim k bit) →
    drivenCellScl k = .drivenLow
  | 0, _ => rfl
  | k + 6, _ => by rw [drivenCellScl, if_neg (by omega), if_neg (by omega)]
  | 1, h | 2, h | 3, h | 4, h | 5, h => h.elim nofun nofun

/-- START drives SDA at its opening release and at its marker (41_bus_conditions.md R100). -/
theorem startPrim_drivesSda : ∀ {k : Nat}, DrivesSda (startPrim k) → k = 0 ∨ k = 3
  | 0, _ => .inl rfl
  | 3, _ => .inr rfl
  | 1, h | 2, h | 4, h | 5, h | _ + 6, h => h.elim nofun nofun

/-- STOP drives SDA at its opening SDA_LOW and at its marker (41_bus_conditions.md R101). -/
theorem stopPrim_drivesSda : ∀ {k : Nat}, DrivesSda (stopPrim k) → k = 0 ∨ k = 4
  | 0, _ => .inl rfl
  | 4, _ => .inr rfl
  | 1, h | 2, h | 3, h | _ + 5, h => h.elim nofun nofun

/-- BEGIN drives SDA at its opening release (43_transfer_commands.md R120). -/
theorem beginPrim_drivesSda : ∀ {k : Nat}, DrivesSda (beginPrim k) → k = 0
  | 0, _ => rfl
  | _ + 1, h => h.elim nofun nofun

/-- The primitives of a phase that drive SDA: those under a low clock, the opening release of START and
of BEGIN, and the two markers. -/
theorem primAt_drivesSda {op : Instr} {k : Nat} {shr : Byte} (hop : op.level ≠ .p)
    (h : DrivesSda (primAt op k shr)) :
    sclKnown op k = some .drivenLow ∨ (k = 0 ∧ (op = .start ∨ op = .begin))
      ∨ (op = .start ∧ k = 3) ∨ (op = .stop ∧ k = 4) := by
  cases op with
  | begin => exact .inr (.inl ⟨beginPrim_drivesSda h, .inr rfl⟩)
  | start => exact .inr ((startPrim_drivesSda h).imp (⟨·, .inl rfl⟩) fun hk => .inl ⟨rfl, hk⟩)
  | stop =>
    obtain rfl | hk := stopPrim_drivesSda h
    · exact .inl rfl
    · exact .inr (.inr (.inr ⟨rfl, hk⟩))
  | wbyte =>
    left
    unfold primAt at h
    unfold sclKnown
    dsimp only at h ⊢
    split at h <;> rename_i hk
    · rw [if_pos hk, drivenCellScl_of_drivesSda h]
    · rw [if_neg hk, sampledCellScl_of_drivesSda h]
  | rbyte a =>
    left
    unfold primAt at h
    unfold sclKnown
    dsimp only at h ⊢
    split at h <;> rename_i hk
    · rw [if_pos hk, sampledCellScl_of_drivesSda h]
    · rw [if_neg hk, drivenCellScl_of_drivesSda h]
  | sdaLow | sdaRel | sclLow | sclRel | sdaSample | wait => exact absurd rfl hop
  | write | read | writeReg | readReg => exact h.elim nofun nofun

/-- START runs where a transaction opens, or as READ_REG's repeated start; BEGIN where none is open. -/
theorem Place.opened_or_restart {p : Place} {s : State} (h : p.op s = .start ∨ p.op s = .begin) :
    p.opened = false ∨ p = .readRegRestart := by
  cases p with
  | beginReleases | writeStart | readStart | writeRegStart | readRegStart => exact .inl rfl
  | readRegRestart => exact .inr rfl
  | _ => exact h.elim nofun nofun

/-- On a settled bus the release that opens START or BEGIN finds SDA released
(41_bus_conditions.md R103). -/
theorem State.busSettled.sda_released {s : State} (hs : s.busSettled) {p : Place} (hq : s.seq = .path p 0)
    (hp : p.opened = false ∨ p = .readRegRestart) : s.sdaDrv = .released := by
  obtain ⟨hopen, hrestart⟩ := (State.busSettled_path hq).mp hs
  obtain ho | hr := hp
  · exact congrArg Prod.fst (hopen ho zero_le_one)
  · exact congrArg Prod.fst (hrestart hr zero_le_one)

/-- A step of the sequencer leaves SDA as its primitive does. -/
theorem tick_sdaDrv (p : Place) (k : Nat) (s : State) :
    (tick p k s).sdaDrv = (runPrim (nextPrim p k s) (entered p k s)).sdaDrv :=
  congrArg Prod.fst (tick_observed_runPrim p k s).1

/-- A step that runs SDA_LOW leaves SDA driven low. -/
theorem tick_sdaDrv_of_sdaLow {p : Place} {k : Nat} {s : State} (h : nextPrim p k s = .sdaLow) :
    (tick p k s).sdaDrv = .drivenLow := by
  rw [tick_sdaDrv, h]
  rfl

/-- A step that runs SDA_REL leaves SDA released. -/
theorem tick_sdaDrv_of_sdaRel {p : Place} {k : Nat} {s : State} (h : nextPrim p k s = .sdaRel) :
    (tick p k s).sdaDrv = .released := by
  rw [tick_sdaDrv, h]
  rfl

/-- A step of the sequencer that changes `SDA_DRV` runs a primitive that drives SDA. -/
theorem nextPrim_drivesSda {p : Place} {k : Nat} {s : State} (h : (tick p k s).sdaDrv ≠ s.sdaDrv) :
    DrivesSda (nextPrim p k s) := by
  have hentered : (entered p k s).sdaDrv = s.sdaDrv := congrArg Prod.fst (entered_observed p k s).1
  exact drivesSda_of_runPrim (tick_sdaDrv p k s ▸ hentered ▸ h)

/-- Settles O54: of the primitives that drive SDA, the two markers alone change it under a released
clock, and the invariant's tables of the lines say that both do. -/
theorem dataChangesOnlyWhileClockLow : Obligations.DataChangesOnlyWhileClockLow := by
  intro s t p k hinv hs hn hq hstep
  obtain rfl : tick p k s = t := Host.Outcome.next.inj ((step_path hq hn).symm.trans hstep)
  obtain ⟨-, -, known, -, -⟩ := (State.atPlace_iff _ _ _).mp (hinv.atPlace hq)
  constructor
  · rintro ⟨hscl, hsda⟩
    obtain low | ⟨rfl, hop⟩ | marker := primAt_drivesSda (p.op_level_ne_p s) (nextPrim_drivesSda hsda)
    · exact absurd (hscl.symm.trans (known.scl _ low)) nofun
    · have hp := Place.opened_or_restart hop
      have hafter := tick_sdaDrv_of_sdaRel (nextPrim_zero_of_start hp s)
      exact absurd (hafter.trans (hs.sda_released hq hp).symm) hsda
    · exact marker
  · rintro (⟨hop, rfl⟩ | ⟨hop, rfl⟩)
    · have hprim : nextPrim p 3 s = .sdaLow := by rw [nextPrim, hop]; rfl
      rw [hop] at known
      exact ⟨known.scl _ rfl, by rw [tick_sdaDrv_of_sdaLow hprim, known.sda _ rfl]; nofun⟩
    · have hprim : nextPrim p 4 s = .sdaRel := by rw [nextPrim, hop]; rfl
      rw [hop] at known
      exact ⟨known.scl _ rfl, by rw [tick_sdaDrv_of_sdaRel hprim, known.sda _ rfl]; nofun⟩

end Sys2Proof.Machine
end
